-- ==== Sys2Proof/Word.lean ====
section
/-! DEFINITION. The words of the block: a byte, the 11-bit transaction word `TW`, and the bus transaction record
(spec/30_encoding.md R80). Every quantity is unsigned (spec/00_scope.md R13). -/

namespace Sys2Proof

/-- One byte of the bus. -/
abbrev Byte := BitVec 8

/-- The transaction word `TW = W:A:D` (R80): bit 10 the direction, bits 9:8 the address, bits 7:0 the payload. -/
abbrev TW := BitVec 11

/-- Direction of a transaction (R80: `W` = 0 read, 1 write). -/
inductive Direction where
  | read
  | write
  deriving DecidableEq, Repr

/-- The bus transaction record of R80, before any check: a bad size or address can be written down, since the block
itself checks them (spec/20_memory.md R64). The payload of a read is ignored (R80). -/
structure Transaction where
  address   : Nat
  size      : Nat
  direction : Direction
  payload   : Byte
  deriving DecidableEq, Repr

end Sys2Proof
end

