-- ==== Sys2Proof/Syntax.lean ====
section
/-! DEFINITION. The instructions of the block: one constructor per row of spec/opcode_table.json, that is per kind of
well-formed bus transaction (spec/30_encoding.md R81, R83). Operands are the fields of the row: `d` is the payload byte
(ignored on reads, R80), `bcd` the count format bit (R86), `nc ns k2 k1 k0` the bits of a read-back command (R88),
`ignored` the bits a row ignores (R87, R90). -/

namespace Sys2Proof

/-- One constructor per row of the opcode table, in the table's order. -/
inductive Instr where
  | rdCnt0 (d : Byte)
  | rdCnt1 (d : Byte)
  | rdCnt2 (d : Byte)
  | rdCtl (d : Byte)
  | wrCnt0 (d : Byte)
  | wrCnt1 (d : Byte)
  | wrCnt2 (d : Byte)
  | latch0 (ignored : BitVec 4)
  | latch1 (ignored : BitVec 4)
  | latch2 (ignored : BitVec 4)
  | progC0LsbM0 (bcd : Bool)
  | progC0LsbM1 (bcd : Bool)
  | progC0LsbM2 (bcd : Bool)
  | progC0LsbM3 (bcd : Bool)
  | progC0LsbM4 (bcd : Bool)
  | progC0LsbM5 (bcd : Bool)
  | progC0LsbRsvd (ignored : BitVec 2)
  | progC0MsbM0 (bcd : Bool)
  | progC0MsbM1 (bcd : Bool)
  | progC0MsbM2 (bcd : Bool)
  | progC0MsbM3 (bcd : Bool)
  | progC0MsbM4 (bcd : Bool)
  | progC0MsbM5 (bcd : Bool)
  | progC0MsbRsvd (ignored : BitVec 2)
  | progC0LohiM0 (bcd : Bool)
  | progC0LohiM1 (bcd : Bool)
  | progC0LohiM2 (bcd : Bool)
  | progC0LohiM3 (bcd : Bool)
  | progC0LohiM4 (bcd : Bool)
  | progC0LohiM5 (bcd : Bool)
  | progC0LohiRsvd (ignored : BitVec 2)
  | progC1LsbM0 (bcd : Bool)
  | progC1LsbM1 (bcd : Bool)
  | progC1LsbM2 (bcd : Bool)
  | progC1LsbM3 (bcd : Bool)
  | progC1LsbM4 (bcd : Bool)
  | progC1LsbM5 (bcd : Bool)
  | progC1LsbRsvd (ignored : BitVec 2)
  | progC1MsbM0 (bcd : Bool)
  | progC1MsbM1 (bcd : Bool)
  | progC1MsbM2 (bcd : Bool)
  | progC1MsbM3 (bcd : Bool)
  | progC1MsbM4 (bcd : Bool)
  | progC1MsbM5 (bcd : Bool)
  | progC1MsbRsvd (ignored : BitVec 2)
  | progC1LohiM0 (bcd : Bool)
  | progC1LohiM1 (bcd : Bool)
  | progC1LohiM2 (bcd : Bool)
  | progC1LohiM3 (bcd : Bool)
  | progC1LohiM4 (bcd : Bool)
  | progC1LohiM5 (bcd : Bool)
  | progC1LohiRsvd (ignored : BitVec 2)
  | progC2LsbM0 (bcd : Bool)
  | progC2LsbM1 (bcd : Bool)
  | progC2LsbM2 (bcd : Bool)
  | progC2LsbM3 (bcd : Bool)
  | progC2LsbM4 (bcd : Bool)
  | progC2LsbM5 (bcd : Bool)
  | progC2LsbRsvd (ignored : BitVec 2)
  | progC2MsbM0 (bcd : Bool)
  | progC2MsbM1 (bcd : Bool)
  | progC2MsbM2 (bcd : Bool)
  | progC2MsbM3 (bcd : Bool)
  | progC2MsbM4 (bcd : Bool)
  | progC2MsbM5 (bcd : Bool)
  | progC2MsbRsvd (ignored : BitVec 2)
  | progC2LohiM0 (bcd : Bool)
  | progC2LohiM1 (bcd : Bool)
  | progC2LohiM2 (bcd : Bool)
  | progC2LohiM3 (bcd : Bool)
  | progC2LohiM4 (bcd : Bool)
  | progC2LohiM5 (bcd : Bool)
  | progC2LohiRsvd (ignored : BitVec 2)
  | rdbk (nc ns k2 k1 k0 : Bool)
  | rdbkRsvd (ignored : BitVec 5)
  deriving DecidableEq, Repr

end Sys2Proof
end

