-- ==== Sys2Proof/WellFormed.lean ====
section
/-! DEFINITION. What a well-formed transaction is (spec/30_encoding.md R80). The block's own check of size and address
is `Machine.ioAccess` through `decode`; these predicates are for statements. -/

namespace Sys2Proof

/-- R80: "a well-formed transaction (size 1, address 0 to 3)". -/
def Transaction.wellFormed (t : Transaction) : Bool :=
  t.size == 1 && decide (t.address ≤ 3)

/-- R80: on a read the payload bits "are ignored and are written 0". Every other operand is well-formed at every
value of its type: the types leave nothing else to check. A read with other payload bits is decoded and executed all
the same, since the bits are ignored. -/
def Instr.wellFormed : Instr → Bool
  | .rdCnt0 d | .rdCnt1 d | .rdCnt2 d | .rdCtl d => d == 0#8
  | _ => true

end Sys2Proof
end

