-- ==== Sys2Proof/Decode.lean ====
section
/-! DEFINITION. Decoding of bus transactions (spec/30_encoding.md R80 to R90) and the encoder. The decoder is total: a
transaction of another size or address is rejected by name, and every one of the 2048 values of `TW` is exactly one
row (R83). The field positions are the spec's own choice from general knowledge (D5, D7), as R82 says. -/

namespace Sys2Proof

/-- Why a transaction or a word is no instruction. The first two are the `BadAccess` of R64, raised before decoding. -/
inductive DecodeError where
  | badSize (size : Nat)
  | badAddress (address : Nat)
  | wordTooWide (w : Nat)
  deriving DecidableEq, Repr

/-! ## Fields -/

/-- `TW = W:A:D` (R80). -/
def packWord (w : Bool) (a : BitVec 2) (d : Byte) : TW := BitVec.ofBool w ++ a ++ d

/-- Field `W` of R80: bit 10. -/
def wordIsWrite (w : TW) : Bool := w.getLsbD 10

/-- Field `A` of R80: bits 9:8. -/
def wordAddress (w : TW) : BitVec 2 := w.extractLsb' 8 2

/-- Field `D` of R80: bits 7:0. -/
def wordPayload (w : TW) : Byte := w.extractLsb' 0 8

/-- Field `SC` of R82: bits 7:6 of the control byte. -/
def controlSC (d : Byte) : BitVec 2 := d.extractLsb' 6 2

/-- Field `RW` of R82: bits 5:4. -/
def controlRW (d : Byte) : BitVec 2 := d.extractLsb' 4 2

/-- Field `M` of R82: bits 3:1. -/
def controlM (d : Byte) : BitVec 3 := d.extractLsb' 1 3

/-- Field `BCD` of R82: bit 0. -/
def controlBCD (d : Byte) : Bool := d.getLsbD 0

/-! ## Decoding -/

/-- The mode field of a mode program (R84): 0 to 5 select a row, 6 and 7 are the reserved pattern (R90), whose ignored
bits are bits 1:0 of the control byte. -/
def pickMode (m : BitVec 3) (bcd : Bool) (m0 m1 m2 m3 m4 m5 : Bool → Instr) (rsvd : BitVec 2 → Instr) : Instr :=
  match m.toNat with
  | 0 => m0 bcd
  | 1 => m1 bcd
  | 2 => m2 bcd
  | 3 => m3 bcd
  | 4 => m4 bcd
  | 5 => m5 bcd
  | _ => rsvd (m.extractLsb' 0 1 ++ BitVec.ofBool bcd)

/-- Control bytes of channel 0: the counter-latch command (R87) and the mode programs (R84, R85), by `RW`. -/
def decodeChannel0 (d : Byte) : Instr :=
  match (controlRW d).toNat with
  | 0 => .latch0 (d.extractLsb' 0 4)
  | 1 => pickMode (controlM d) (controlBCD d) .progC0LsbM0 .progC0LsbM1 .progC0LsbM2 .progC0LsbM3 .progC0LsbM4 .progC0LsbM5
      .progC0LsbRsvd
  | 2 => pickMode (controlM d) (controlBCD d) .progC0MsbM0 .progC0MsbM1 .progC0MsbM2 .progC0MsbM3 .progC0MsbM4 .progC0MsbM5
      .progC0MsbRsvd
  | _ => pickMode (controlM d) (controlBCD d) .progC0LohiM0 .progC0LohiM1 .progC0LohiM2 .progC0LohiM3 .progC0LohiM4 .progC0LohiM5
      .progC0LohiRsvd

/-- Control bytes of channel 1: the counter-latch command (R87) and the mode programs (R84, R85), by `RW`. -/
def decodeChannel1 (d : Byte) : Instr :=
  match (controlRW d).toNat with
  | 0 => .latch1 (d.extractLsb' 0 4)
  | 1 => pickMode (controlM d) (controlBCD d) .progC1LsbM0 .progC1LsbM1 .progC1LsbM2 .progC1LsbM3 .progC1LsbM4 .progC1LsbM5
      .progC1LsbRsvd
  | 2 => pickMode (controlM d) (controlBCD d) .progC1MsbM0 .progC1MsbM1 .progC1MsbM2 .progC1MsbM3 .progC1MsbM4 .progC1MsbM5
      .progC1MsbRsvd
  | _ => pickMode (controlM d) (controlBCD d) .progC1LohiM0 .progC1LohiM1 .progC1LohiM2 .progC1LohiM3 .progC1LohiM4 .progC1LohiM5
      .progC1LohiRsvd

/-- Control bytes of channel 2: the counter-latch command (R87) and the mode programs (R84, R85), by `RW`. -/
def decodeChannel2 (d : Byte) : Instr :=
  match (controlRW d).toNat with
  | 0 => .latch2 (d.extractLsb' 0 4)
  | 1 => pickMode (controlM d) (controlBCD d) .progC2LsbM0 .progC2LsbM1 .progC2LsbM2 .progC2LsbM3 .progC2LsbM4 .progC2LsbM5
      .progC2LsbRsvd
  | 2 => pickMode (controlM d) (controlBCD d) .progC2MsbM0 .progC2MsbM1 .progC2MsbM2 .progC2MsbM3 .progC2MsbM4 .progC2MsbM5
      .progC2MsbRsvd
  | _ => pickMode (controlM d) (controlBCD d) .progC2LohiM0 .progC2LohiM1 .progC2LohiM2 .progC2LohiM3 .progC2LohiM4 .progC2LohiM5
      .progC2LohiRsvd

/-- Control bytes with `SC = 3`: the read-back command (R88), reserved when bit 0 is 1 (R90). -/
def decodeReadBack (d : Byte) : Instr :=
  if d.getLsbD 0 then .rdbkRsvd (d.extractLsb' 1 5)
  else .rdbk (d.getLsbD 5) (d.getLsbD 4) (d.getLsbD 3) (d.getLsbD 2) (d.getLsbD 1)

/-- Decode of a control byte, in the order of R83. -/
def decodeControl (d : Byte) : Instr :=
  match (controlSC d).toNat with
  | 0 => decodeChannel0 d
  | 1 => decodeChannel1 d
  | 2 => decodeChannel2 d
  | _ => decodeReadBack d

/-- The register-decode mux (R81), on the transaction word. -/
def decodeWord (w : TW) : Instr :=
  if wordIsWrite w then
    match (wordAddress w).toNat with
    | 0 => .wrCnt0 (wordPayload w)
    | 1 => .wrCnt1 (wordPayload w)
    | 2 => .wrCnt2 (wordPayload w)
    | _ => decodeControl (wordPayload w)
  else
    match (wordAddress w).toNat with
    | 0 => .rdCnt0 (wordPayload w)
    | 1 => .rdCnt1 (wordPayload w)
    | 2 => .rdCnt2 (wordPayload w)
    | _ => .rdCtl (wordPayload w)

/-- The word of a transaction of size 1 at an address 0 to 3 (R80). -/
def transactionWord (t : Transaction) : TW :=
  packWord (t.direction == .write) (BitVec.ofNat 2 t.address) t.payload

/-- The transaction a word stands for (R80). -/
def wordTransaction (w : TW) : Transaction :=
  { address := (wordAddress w).toNat, size := 1, direction := if wordIsWrite w then .write else .read,
    payload := wordPayload w }

/-- Size, then address, then the mux: R64 comes "before any decoding" (R80). -/
def decode (t : Transaction) : Except DecodeError Instr :=
  if t.size ≠ 1 then .error (.badSize t.size)
  else if 3 < t.address then .error (.badAddress t.address)
  else .ok (decodeWord (transactionWord t))

/-! ## Encoding -/

/-- A control byte from its four fields (R82). -/
def controlByte (sc rw : BitVec 2) (m : BitVec 3) (bcd : Bool) : Byte := sc ++ rw ++ m ++ BitVec.ofBool bcd

/-- The word of a control-port write (R81: `W = 1`, `A = 3`). -/
def controlWord (d : Byte) : TW := packWord true 3#2 d

/-- The word of a mode program (R84 to R86). -/
def programWord (sc rw : BitVec 2) (m : BitVec 3) (bcd : Bool) : TW := controlWord (controlByte sc rw m bcd)

/-- The word of a reserved mode program (R90): `M` is 6 or 7, bits 3:2 of the byte are `0b11`. -/
def reservedProgramWord (sc rw : BitVec 2) (low : BitVec 2) : TW := controlWord (sc ++ rw ++ 3#2 ++ low)

/-- The word of a counter-latch command (R87), bits 3:0 as given. -/
def latchWord (sc : BitVec 2) (low : BitVec 4) : TW := controlWord (sc ++ 0#2 ++ low)

/-- The encoder: the transaction word of every instruction, from the encodings of R81 to R90. -/
def encodeWord : Instr → TW
  | .rdCnt0 d => packWord false 0#2 d
  | .rdCnt1 d => packWord false 1#2 d
  | .rdCnt2 d => packWord false 2#2 d
  | .rdCtl d => packWord false 3#2 d
  | .wrCnt0 d => packWord true 0#2 d
  | .wrCnt1 d => packWord true 1#2 d
  | .wrCnt2 d => packWord true 2#2 d
  | .latch0 ignored => latchWord 0#2 ignored
  | .latch1 ignored => latchWord 1#2 ignored
  | .latch2 ignored => latchWord 2#2 ignored
  | .progC0LsbM0 bcd => programWord 0#2 1#2 0#3 bcd
  | .progC0LsbM1 bcd => programWord 0#2 1#2 1#3 bcd
  | .progC0LsbM2 bcd => programWord 0#2 1#2 2#3 bcd
  | .progC0LsbM3 bcd => programWord 0#2 1#2 3#3 bcd
  | .progC0LsbM4 bcd => programWord 0#2 1#2 4#3 bcd
  | .progC0LsbM5 bcd => programWord 0#2 1#2 5#3 bcd
  | .progC0LsbRsvd ignored => reservedProgramWord 0#2 1#2 ignored
  | .progC0MsbM0 bcd => programWord 0#2 2#2 0#3 bcd
  | .progC0MsbM1 bcd => programWord 0#2 2#2 1#3 bcd
  | .progC0MsbM2 bcd => programWord 0#2 2#2 2#3 bcd
  | .progC0MsbM3 bcd => programWord 0#2 2#2 3#3 bcd
  | .progC0MsbM4 bcd => programWord 0#2 2#2 4#3 bcd
  | .progC0MsbM5 bcd => programWord 0#2 2#2 5#3 bcd
  | .progC0MsbRsvd ignored => reservedProgramWord 0#2 2#2 ignored
  | .progC0LohiM0 bcd => programWord 0#2 3#2 0#3 bcd
  | .progC0LohiM1 bcd => programWord 0#2 3#2 1#3 bcd
  | .progC0LohiM2 bcd => programWord 0#2 3#2 2#3 bcd
  | .progC0LohiM3 bcd => programWord 0#2 3#2 3#3 bcd
  | .progC0LohiM4 bcd => programWord 0#2 3#2 4#3 bcd
  | .progC0LohiM5 bcd => programWord 0#2 3#2 5#3 bcd
  | .progC0LohiRsvd ignored => reservedProgramWord 0#2 3#2 ignored
  | .progC1LsbM0 bcd => programWord 1#2 1#2 0#3 bcd
  | .progC1LsbM1 bcd => programWord 1#2 1#2 1#3 bcd
  | .progC1LsbM2 bcd => programWord 1#2 1#2 2#3 bcd
  | .progC1LsbM3 bcd => programWord 1#2 1#2 3#3 bcd
  | .progC1LsbM4 bcd => programWord 1#2 1#2 4#3 bcd
  | .progC1LsbM5 bcd => programWord 1#2 1#2 5#3 bcd
  | .progC1LsbRsvd ignored => reservedProgramWord 1#2 1#2 ignored
  | .progC1MsbM0 bcd => programWord 1#2 2#2 0#3 bcd
  | .progC1MsbM1 bcd => programWord 1#2 2#2 1#3 bcd
  | .progC1MsbM2 bcd => programWord 1#2 2#2 2#3 bcd
  | .progC1MsbM3 bcd => programWord 1#2 2#2 3#3 bcd
  | .progC1MsbM4 bcd => programWord 1#2 2#2 4#3 bcd
  | .progC1MsbM5 bcd => programWord 1#2 2#2 5#3 bcd
  | .progC1MsbRsvd ignored => reservedProgramWord 1#2 2#2 ignored
  | .progC1LohiM0 bcd => programWord 1#2 3#2 0#3 bcd
  | .progC1LohiM1 bcd => programWord 1#2 3#2 1#3 bcd
  | .progC1LohiM2 bcd => programWord 1#2 3#2 2#3 bcd
  | .progC1LohiM3 bcd => programWord 1#2 3#2 3#3 bcd
  | .progC1LohiM4 bcd => programWord 1#2 3#2 4#3 bcd
  | .progC1LohiM5 bcd => programWord 1#2 3#2 5#3 bcd
  | .progC1LohiRsvd ignored => reservedProgramWord 1#2 3#2 ignored
  | .progC2LsbM0 bcd => programWord 2#2 1#2 0#3 bcd
  | .progC2LsbM1 bcd => programWord 2#2 1#2 1#3 bcd
  | .progC2LsbM2 bcd => programWord 2#2 1#2 2#3 bcd
  | .progC2LsbM3 bcd => programWord 2#2 1#2 3#3 bcd
  | .progC2LsbM4 bcd => programWord 2#2 1#2 4#3 bcd
  | .progC2LsbM5 bcd => programWord 2#2 1#2 5#3 bcd
  | .progC2LsbRsvd ignored => reservedProgramWord 2#2 1#2 ignored
  | .progC2MsbM0 bcd => programWord 2#2 2#2 0#3 bcd
  | .progC2MsbM1 bcd => programWord 2#2 2#2 1#3 bcd
  | .progC2MsbM2 bcd => programWord 2#2 2#2 2#3 bcd
  | .progC2MsbM3 bcd => programWord 2#2 2#2 3#3 bcd
  | .progC2MsbM4 bcd => programWord 2#2 2#2 4#3 bcd
  | .progC2MsbM5 bcd => programWord 2#2 2#2 5#3 bcd
  | .progC2MsbRsvd ignored => reservedProgramWord 2#2 2#2 ignored
  | .progC2LohiM0 bcd => programWord 2#2 3#2 0#3 bcd
  | .progC2LohiM1 bcd => programWord 2#2 3#2 1#3 bcd
  | .progC2LohiM2 bcd => programWord 2#2 3#2 2#3 bcd
  | .progC2LohiM3 bcd => programWord 2#2 3#2 3#3 bcd
  | .progC2LohiM4 bcd => programWord 2#2 3#2 4#3 bcd
  | .progC2LohiM5 bcd => programWord 2#2 3#2 5#3 bcd
  | .progC2LohiRsvd ignored => reservedProgramWord 2#2 3#2 ignored
  | .rdbk nc ns k2 k1 k0 =>
    controlWord (3#2 ++ BitVec.ofBool nc ++ BitVec.ofBool ns ++ BitVec.ofBool k2 ++ BitVec.ofBool k1 ++
      BitVec.ofBool k0 ++ 0#1)
  | .rdbkRsvd ignored => controlWord (3#2 ++ ignored ++ 1#1)

/-- The transaction of an instruction. -/
def encode (i : Instr) : Transaction := wordTransaction (encodeWord i)

/-! ## The opcode table's numbering -/

/-- A number read as a transaction word; a number of more than 11 bits is none (R80). -/
def decodeNat (w : Nat) : Except DecodeError Instr :=
  if w < 2048 then decode (wordTransaction (BitVec.ofNat 11 w)) else .error (.wordTooWide w)

/-- The instruction the decoder reads from a word numbered as spec/opcode_table.json numbers it, which is `TW`'s own
numbering (R80); bits from `nbits` up are 0. -/
def decodeTableWord (nbits w : Nat) : Option Instr :=
  match decodeNat (w % 2 ^ nbits) with
  | .ok i => some i
  | .error _ => none

end Sys2Proof
end

