-- ==== Sys2Proof/Config.lean ====
section
/-! DEFINITION. What the spec leaves open (spec/93_implementation_defined.md part 2): the free values a step may draw
and the parameters of spec/00_scope.md R7 that have no default. Every opaque constant has no body, so no proof can know
its value. -/

namespace Sys2Proof.Config

/-- DESIGN CHOICE (log 6). `any value` as the payload of a read (spec/41_channel_read_and_latch.md R132, R136): the
`n`-th draw of a run. -/
opaque freeByte (n : Nat) : Byte

/-- DESIGN CHOICE (log 6). `any value in 0..65536` for `currentCount` after a mode program
(spec/40_channel_program_and_load.md R105): the `n`-th draw of a run. -/
opaque freeCount (n : Nat) : Fin 65537

/-- DESIGN CHOICE (log 3). `CLK_PERIOD[c] - 1` of an instance as constructed: OPEN in R7, a natural number at least 1. -/
opaque clkPeriodLessOne (c : Nat) : Nat

/-- DESIGN CHOICE (log 3). `ACCESS_LATENCY` of an instance as constructed: OPEN in R7. -/
opaque accessLatency : Nat

/-- `NUM_INT_PINS`: OPEN in R7, its default 3 (D3). -/
def numIntPinsDefault : Nat := 3

/-- `GATE_RESET[c]`: OPEN in R7, its default 1 for every channel (D19). -/
def gateResetDefault : Bool := true

end Sys2Proof.Config
end

