-- ==== Sys2Proof/Machine/State.lean ====
section
/-! DEFINITION. The state of the block (spec/10_state.md), as plain data: three channel records and the fatal mark,
and beside them what the spec counts outside the block but a run needs: the parameters of the instance, the current
tick, the calls the agents make, and the two output logs. The reset state is at the end (R43, R240). -/

namespace Sys2Proof.Machine

/-! ## Names -/

/-- The number of a channel (R20). -/
inductive ChanId where
  | c0
  | c1
  | c2
  deriving DecidableEq, Repr

/-- The four phases of a channel (R21). -/
inductive Phase where
  | unprogrammed
  | awaitingReload
  | counting
  | halted
  deriving DecidableEq, Repr

/-- The six operating modes (R22). -/
inductive Mode where
  | m0
  | m1
  | m2
  | m3
  | m4
  | m5
  deriving DecidableEq, Repr

/-- The two count formats (R23). -/
inductive CountFormat where
  | binary
  | bcd
  deriving DecidableEq, Repr

/-- The three access modes (R24). -/
inductive AccessMode where
  | lowOnly
  | highOnly
  | lowHigh
  deriving DecidableEq, Repr

/-- Which byte of a `LowHigh` pair comes next (R25, R26). -/
inductive Half where
  | low
  | high
  deriving DecidableEq, Repr

/-! ## The channel record -/

/-- One channel (R20 to R34). -/
structure Channel where
  /-- R21. -/
  phase          : Phase
  /-- R22. -/
  mode           : Mode
  /-- R23. -/
  countFormat    : CountFormat
  /-- R24. -/
  accessMode     : AccessMode
  /-- R25: the half the next data-port write supplies. -/
  writeHalf      : Half
  /-- R25: the low byte held between the two writes of a pair. -/
  writeLow       : Byte
  /-- R26: the half the next data-port read returns. -/
  readHalf       : Half
  /-- R27: the reload value, as a number. -/
  countRegister  : BitVec 16
  /-- R28: the stored count, 0 to 65536; not decremented tick by tick. -/
  currentCount   : Nat
  /-- R29. -/
  nullCount      : Bool
  /-- R30: the last level given by the gate driver. -/
  gate           : Bool
  /-- R31. -/
  outputLevel    : Bool
  /-- R32. -/
  latched        : Bool
  /-- R32: the latched count as the bus will see it. -/
  latchedValue   : BitVec 16
  /-- R33. -/
  statusLatched  : Bool
  /-- R33. -/
  latchedStatus  : Byte
  /-- R34: the scheduler's pending event (R12). -/
  armedUntilTick : Option Nat
  deriving DecidableEq, Repr

/-! ## What the agents give and what the block shows -/

/-- One entry of the checkpoint list: a named number (spec/46_checkpoint.md R201). -/
structure Entry where
  name  : String
  value : Nat
  deriving DecidableEq, Repr

/-- One call of an agent (spec/00_scope.md R8); `Expiry` is not among them, the machine takes it itself. -/
inductive Input where
  /-- `IoAccess`, by the bus host (spec/44_front_end.md R180). -/
  | bus (t : Transaction)
  /-- `SetGate(c, level)`, by the gate driver (spec/43_channel_gate.md R170). -/
  | gate (c : ChanId) (level : Bool)
  /-- `Advance(t)`, by simulated time (spec/42_channel_expiry_modes.md R150). -/
  | advance (t : Nat)
  /-- `Serialize()`, by the checkpoint host (spec/46_checkpoint.md R200). -/
  | serialize
  /-- `Restore(list)`, by the checkpoint host (R202). -/
  | restore (entries : List Entry)
  /-- `Startup()`, by the checkpoint host (R205). -/
  | startup
  deriving DecidableEq, Repr

/-- One call on an interrupt source pin: the tick, the channel, `true` for `assert`, `false` for `deassert`
(spec/45_output_bridge.md R191, R194). -/
structure PinCall where
  tick  : Nat
  chan  : ChanId
  level : Bool
  deriving DecidableEq, Repr

/-- What a step returns to its caller (spec/00_scope.md R11). -/
inductive Reply where
  /-- A bus read: the payload byte and the latency (R180). -/
  | read (payload : Byte) (latency : Nat)
  /-- A bus write: the latency (R180). -/
  | wrote (latency : Nat)
  /-- `Serialize()`: the list (R200). -/
  | saved (entries : List Entry)
  deriving DecidableEq, Repr

/-- The fatal codes, with the information of spec/60_exceptions.md R220. -/
inductive FatalCode where
  /-- R221: a transaction of another size, or outside the window. -/
  | badAccess (address size : Nat)
  /-- R222: a malformed checkpoint list, with the position (from 1) of the first bad entry. -/
  | checkpointMismatch (position : Nat)
  /-- R223: an event in the past at `Startup`, with the channel. -/
  | checkpointInconsistent (c : ChanId)
  /-- R224: an armed channel armed again, with the channel. -/
  | doubleArm (c : ChanId)
  deriving DecidableEq, Repr

/-- The parameters of an instance (spec/00_scope.md R7), given to `Reset()` (R240) and fixed from then on. -/
structure Params where
  clkPeriod0    : Nat
  clkPeriod1    : Nat
  clkPeriod2    : Nat
  accessLatency : Nat
  numIntPins    : Nat
  gateReset0    : Bool
  gateReset1    : Bool
  gateReset2    : Bool
  deriving DecidableEq, Repr

/-- The state of the machine. -/
structure State where
  /-- R7: the parameters; no step changes them. -/
  params    : Params
  /-- R20. -/
  ch0       : Channel
  /-- R20. -/
  ch1       : Channel
  /-- R20. -/
  ch2       : Channel
  /-- R35: set once, never cleared. -/
  fatalCode : Option FatalCode
  /-- R10: the current simulated tick, which only `Advance` (and an expiry on its way) moves. -/
  now       : Nat
  /-- DESIGN CHOICE (log 1): the agents' calls not taken yet, the first to be taken first (R68). -/
  pending   : List Input
  /-- R194: the pin calls made so far, oldest first. -/
  pinLog    : List PinCall
  /-- DESIGN CHOICE (log 5): what the steps returned so far (R11), oldest first. -/
  replies   : List Reply
  /-- DESIGN CHOICE (log 6): how many free values were drawn so far (R14 `any value`); the model's own. -/
  draws     : Nat
  deriving DecidableEq, Repr

/-! ## How a step may stop -/

/-- The faults: the machine stops and stays stopped. -/
inductive Fault where
  /-- Raised by every step, and every instruction, in a state that holds a fatal code: "after it no step of any agent
  has a meaning" (spec/60_exceptions.md R225). Safe: the spec gives such a step no meaning at all. -/
  | terminated (code : FatalCode)
  deriving DecidableEq, Repr

/-- The refusals: the spec gives the step no meaning. -/
inductive Refusal where
  /-- An arm of `exec` whose instruction has no meaning yet. Safe. -/
  | notModelled (mnemonic : String)
  /-- Raised by a load of a mode 3 channel whose effective count is 1 (spec/40_channel_program_and_load.md R118).
  Safe: the spec refuses the step as a whole. -/
  | squareWaveCountOne
  /-- Raised by `Advance(t)` with `t < now` (spec/93_implementation_defined.md U13; R10 "It never decreases"). Safe. -/
  | timeBackwards
  /-- Raised by `Advance`, a bus access, a gate change or `Serialize` while an event is armed at a tick before `now`
  (U12, U13: only a restore at another clock than the saved one makes such a state). Safe. -/
  | staleEvent
  deriving DecidableEq, Repr

/-! ## Reset -/

/-- A channel right after `Reset()` (R43): the fields the spec gives, over a record `drawn` of unspecified values. -/
def Channel.atReset (gate : Bool) (drawn : Channel) : Channel :=
  { drawn with
    phase := .unprogrammed
    armedUntilTick := none
    gate := gate
    latched := false
    statusLatched := false }

/-- `Reset()` of an instance with parameters `p` (R240), for any draw of the unspecified fields (R43). -/
def State.resetWith (p : Params) (drawn0 drawn1 drawn2 : Channel) : State where
  params    := p
  ch0       := Channel.atReset p.gateReset0 drawn0
  ch1       := Channel.atReset p.gateReset1 drawn1
  ch2       := Channel.atReset p.gateReset2 drawn2
  fatalCode := none
  now       := 0
  pending   := []
  pinLog    := []
  replies   := []
  draws     := 0

/-- DESIGN CHOICE (log 2, unsafe). The values `State.reset` gives the fields R43 calls unspecified: 0 everywhere, and
access mode `LowOnly` (the values vector V8 of spec/95_test_vectors.md draws). -/
def Channel.zero : Channel where
  phase          := .unprogrammed
  mode           := .m0
  countFormat    := .binary
  accessMode     := .lowOnly
  writeHalf      := .low
  writeLow       := 0#8
  readHalf       := .low
  countRegister  := 0#16
  currentCount   := 0
  nullCount      := false
  gate           := false
  outputLevel    := false
  latched        := false
  latchedValue   := 0#16
  statusLatched  := false
  latchedStatus  := 0#8
  armedUntilTick := none

/-- DESIGN CHOICE (log 3). The parameters of the instance `State.reset` constructs: open constants of Config where R7
gives no default. -/
def Params.ofConfig : Params where
  clkPeriod0    := Config.clkPeriodLessOne 0 + 1
  clkPeriod1    := Config.clkPeriodLessOne 1 + 1
  clkPeriod2    := Config.clkPeriodLessOne 2 + 1
  accessLatency := Config.accessLatency
  numIntPins    := Config.numIntPinsDefault
  gateReset0    := Config.gateResetDefault
  gateReset1    := Config.gateResetDefault
  gateReset2    := Config.gateResetDefault

/-- The machine right after reset. -/
def State.reset : State := State.resetWith Params.ofConfig Channel.zero Channel.zero Channel.zero

end Sys2Proof.Machine
end

