-- ==== Sys2Proof/Machine/Ops.lean ====
section
/-! DEFINITION. The named operations over the channels and the device: reading and writing a channel record, driving
an output, the scheduler calls, recording a fatal code, committing what an operation did to a channel. An operation of
a channel reads and writes one `Channel` record, so that no channel can touch another (spec/10_state.md R20). There is
no memory, so there are no memory operations (spec/20_memory.md R60). -/

namespace Sys2Proof.Machine

/-- What every step answers. -/
abbrev StepResult := Host.Outcome State Fault Refusal

/-! ## Channels of the device -/

/-- The number of a channel, as pins and names count it. -/
def ChanId.index : ChanId → Nat
  | .c0 => 0
  | .c1 => 1
  | .c2 => 2

/-- `ch[c]`. -/
def State.chan (s : State) : ChanId → Channel
  | .c0 => s.ch0
  | .c1 => s.ch1
  | .c2 => s.ch2

/-- `ch[c] <- x`. -/
def State.setChan (c : ChanId) (x : Channel) (s : State) : State :=
  match c with
  | .c0 => { s with ch0 := x }
  | .c1 => { s with ch1 := x }
  | .c2 => { s with ch2 := x }

/-- `CLK_PERIOD[c]` (R7). -/
def Params.clkPeriod (p : Params) : ChanId → Nat
  | .c0 => p.clkPeriod0
  | .c1 => p.clkPeriod1
  | .c2 => p.clkPeriod2

/-! ## The scheduler calls and the output of one channel -/

/-- Why a channel operation has no result. -/
inductive Stop where
  /-- `fatal DoubleArm` (spec/40_channel_program_and_load.md R103). -/
  | doubleArm
  /-- `refuse` (R118). -/
  | squareWaveCountOne
  deriving DecidableEq, Repr

/-- A channel in the middle of a step: its record, and the levels driven through `SetOut` so far, oldest first. -/
structure Drive where
  ch    : Channel
  calls : List Bool
  deriving DecidableEq, Repr

/-- `SetOut(c, v)` (spec/45_output_bridge.md R190): the level is stored and forwarded, changed or not. -/
def Drive.setOut (v : Bool) (d : Drive) : Drive :=
  { ch := { d.ch with outputLevel := v }, calls := d.calls ++ [v] }

/-- `Cancel(c)` (spec/40_channel_program_and_load.md R103). -/
def Channel.cancel (ch : Channel) : Channel := { ch with armedUntilTick := none }

/-- `Schedule(c, A)` (R103): fatal when an event is already pending. -/
def Drive.schedule (a : Nat) (d : Drive) : Except Stop Drive :=
  match d.ch.armedUntilTick with
  | none => .ok { d with ch := { d.ch with armedUntilTick := some a } }
  | some _ => .error .doubleArm

/-- `Armed(c)` (spec/10_state.md R41). -/
def Channel.armed (ch : Channel) : Bool := ch.armedUntilTick.isSome

/-- `LevelGated(c)` (R41). -/
def Mode.levelGated : Mode → Bool
  | .m0 | .m2 | .m3 => true
  | .m1 | .m4 | .m5 => false

/-- `EdgeTriggered(c)` (R41). -/
def Mode.edgeTriggered : Mode → Bool
  | .m0 | .m2 | .m3 => false
  | .m1 | .m4 | .m5 => true

/-- `Paused(c)` (R41). -/
def Channel.paused (ch : Channel) : Bool := ch.phase == .counting && !ch.armed

/-! ## The device -/

/-- The bridge, `Notify(c, v)` for each level of `calls` in order (spec/45_output_bridge.md R191): the call is made and
logged when a pin is wired for the channel, else dropped. -/
def State.notify (c : ChanId) (calls : List Bool) (s : State) : State :=
  { s with
    pinLog := s.pinLog ++
      if c.index < s.params.numIntPins then calls.map fun v => { tick := s.now, chan := c, level := v } else [] }

/-- A step returns `r` to its caller (spec/00_scope.md R11). -/
def State.reply (r : Reply) (s : State) : State := { s with replies := s.replies ++ [r] }

/-- A bus read returns its payload and the fixed latency (spec/20_memory.md R73). -/
def State.replyRead (payload : Byte) (s : State) : State := s.reply (.read payload s.params.accessLatency)

/-- A bus write returns the fixed latency (R73). -/
def State.replyWrote (s : State) : State := s.reply (.wrote s.params.accessLatency)

/-- One free value was drawn. -/
def State.drawn (s : State) : State := { s with draws := s.draws + 1 }

/-- `fatal <Code>`, the one way an error is taken (spec/60_exceptions.md R220, R225): the code is recorded, no channel
field changes, no pin call is made, nothing is returned. There is no handler and no return from it (R225).
DESIGN CHOICE (log 7, safe): a next state holds the code. -/
def takeFatal (code : FatalCode) (s : State) : StepResult := .next { s with fatalCode := some code }

/-- A step has a meaning only while no fatal code is recorded (R225; spec/44_front_end.md R180). -/
def whileRunning (s : State) (k : StepResult) : StepResult :=
  match s.fatalCode with
  | none => k
  | some code => .fault (.terminated code)

/-- The end of an operation of channel `c`: its record is written, its pin calls go out, and `finish` says what the
step returns. An operation without a result leaves the channel as it was. -/
def commit (c : ChanId) (r : Except Stop Drive) (finish : State → State) (s : State) : StepResult :=
  match r with
  | .ok d => .next (finish ((s.setChan c d.ch).notify c d.calls))
  | .error .doubleArm => takeFatal (.doubleArm c) s
  | .error .squareWaveCountOne => .refused .squareWaveCountOne

end Sys2Proof.Machine
end

