-- ==== Sys2Proof/Machine/Operands.lean ====
section
/-! DEFINITION. Count arithmetic and the forms a count takes on the bus: the effective count, BCD, assembly of a count
from bytes and its split into bytes, the live count (spec/30_encoding.md R91, R92, spec/40_channel_program_and_load.md
R100 to R102, spec/41_channel_read_and_latch.md R130). Counts are unsigned naturals (R117). -/

namespace Sys2Proof.Machine

/-- The count format a `BCD` bit selects (spec/30_encoding.md R86). -/
def formatOf (bcd : Bool) : CountFormat := if bcd then .bcd else .binary

/-- `Eff(c)` (R100): a reload value of 0 stands for 65536, in BCD format for 10000. -/
def eff (ch : Channel) : Nat :=
  if ch.countRegister = 0#16 then
    match ch.countFormat with
    | .bcd => 10000
    | .binary => 65536
  else ch.countRegister.toNat

/-- One BCD digit, clamped to 9 (R101). -/
def bcdDigit (raw : BitVec 16) (lo : Nat) : Nat := min (raw.extractLsb' lo 4).toNat 9

/-- `BcdDecode(raw)` (R101). -/
def bcdDecode (raw : BitVec 16) : Nat :=
  1000 * bcdDigit raw 12 + 100 * bcdDigit raw 8 + 10 * bcdDigit raw 4 + bcdDigit raw 0

/-- The four decimal digits of `w`, one per nibble (R102). -/
def bcdEncode (w : Nat) : BitVec 16 :=
  BitVec.ofNat 4 (w / 1000) ++ BitVec.ofNat 4 (w / 100 % 10) ++ BitVec.ofNat 4 (w / 10 % 10) ++ BitVec.ofNat 4 (w % 10)

/-- `Enc(c, v)` (R102): what the bus sees of a count. -/
def enc (f : CountFormat) (v : Nat) : BitVec 16 :=
  match f with
  | .binary => BitVec.ofNat 16 v
  | .bcd => bcdEncode (v % 10000)

/-- The value of the 16 raw bits of a count (R113). -/
def countOf (f : CountFormat) (raw : BitVec 16) : BitVec 16 :=
  match f with
  | .binary => raw
  | .bcd => BitVec.ofNat 16 (bcdDecode raw)

/-- `hi : lo` (spec/00_scope.md R13). -/
def joinBytes (hi lo : Byte) : BitVec 16 := hi ++ lo

/-- `v[7:0]` (spec/30_encoding.md R92). -/
def lowByte (v : BitVec 16) : Byte := v.extractLsb' 0 8

/-- `v[15:8]` (R92). -/
def highByte (v : BitVec 16) : Byte := v.extractLsb' 8 8

/-- `ceil(x / y)` (spec/00_scope.md R13). -/
def ceilDiv (x y : Nat) : Nat := (x + y - 1) / y

/-- How many periods the first run of a load lasts (R104): the high half in mode 3, else the whole count. -/
def firstPeriods (m : Mode) (n : Nat) : Nat :=
  match m with
  | .m3 => (n + 1) / 2
  | _ => n

/-- The periods of the low half still to come while a mode 3 output is high (R130, R172); 0 otherwise. -/
def lowHalfToCome (ch : Channel) : Nat :=
  match ch.mode, ch.outputLevel with
  | .m3, true => eff ch / 2
  | _, _ => 0

/-- `Live(c)` at tick `now` (R130): `clk` is `CLK_PERIOD[c]`. -/
def live (now clk : Nat) (ch : Channel) : Nat :=
  match ch.armedUntilTick with
  | none => ch.currentCount
  | some a => ceilDiv (a - now) clk + lowHalfToCome ch

/-- The byte of `v` a data-port access carries, by access mode and, in `LowHigh`, by half (R132, R92). -/
def byteOf (am : AccessMode) (h : Half) (v : BitVec 16) : Byte :=
  match am, h with
  | .lowOnly, _ => lowByte v
  | .highOnly, _ => highByte v
  | .lowHigh, .low => lowByte v
  | .lowHigh, .high => highByte v

end Sys2Proof.Machine
end

