-- ==== Sys2Proof/Machine/Flags.lean ====
section
/-! DEFINITION. The status byte (spec/30_encoding.md R89, spec/41_channel_read_and_latch.md R131) and the codes of its
fields. -/

namespace Sys2Proof.Machine

/-- `rwcode` (R131, R85). -/
def AccessMode.code : AccessMode → BitVec 2
  | .lowOnly => 1#2
  | .highOnly => 2#2
  | .lowHigh => 3#2

/-- The mode number (R84, R89). -/
def Mode.code : Mode → BitVec 3
  | .m0 => 0#3
  | .m1 => 1#3
  | .m2 => 2#3
  | .m3 => 3#3
  | .m4 => 4#3
  | .m5 => 5#3

/-- `bcdcode` (R131, R86). -/
def CountFormat.code : CountFormat → BitVec 1
  | .binary => 0#1
  | .bcd => 1#1

/-- `Status(c)` (R131): `OUT`, `NULL`, `RW`, `M`, `BCD` from bit 7 down (R89). -/
def status (ch : Channel) : Byte :=
  BitVec.ofBool ch.outputLevel ++ BitVec.ofBool ch.nullCount ++ ch.accessMode.code ++ ch.mode.code ++
    ch.countFormat.code

/-- The level a mode program drives: low for mode 0, high for the others (spec/40_channel_program_and_load.md R105). -/
def programLevel : Mode → Bool
  | .m0 => false
  | .m1 | .m2 | .m3 | .m4 | .m5 => true

end Sys2Proof.Machine
end

