-- ==== Sys2Proof/Machine/Checkpoint.lean ====
section
/-! DEFINITION. The checkpoint interface (spec/46_checkpoint.md R200 to R205): the list of 54 named numbers, saving and
restoring it, and the startup check. -/

namespace Sys2Proof.Machine

/-! ## The list (R201) -/

/-- The 18 entries of one channel, in the order of R201. -/
inductive Field where
  | mode
  | countFormat
  | accessMode
  | countRegister
  | currentCount
  | gate
  | outputLevel
  | latched
  | latchedValue
  | armed
  | armedUntilTick
  | phase
  | writeHalf
  | writeLow
  | readHalf
  | nullCount
  | statusLatched
  | latchedStatus
  deriving DecidableEq, Repr

/-- Their order. -/
def fieldOrder : List Field :=
  [.mode, .countFormat, .accessMode, .countRegister, .currentCount, .gate, .outputLevel, .latched, .latchedValue,
    .armed, .armedUntilTick, .phase, .writeHalf, .writeLow, .readHalf, .nullCount, .statusLatched, .latchedStatus]

/-- Their names. -/
def Field.name : Field → String
  | .mode => "mode"
  | .countFormat => "countFormat"
  | .accessMode => "accessMode"
  | .countRegister => "countRegister"
  | .currentCount => "currentCount"
  | .gate => "gate"
  | .outputLevel => "outputLevel"
  | .latched => "latched"
  | .latchedValue => "latchedValue"
  | .armed => "armed"
  | .armedUntilTick => "armedUntilTick"
  | .phase => "phase"
  | .writeHalf => "writeHalf"
  | .writeLow => "writeLow"
  | .readHalf => "readHalf"
  | .nullCount => "nullCount"
  | .statusLatched => "statusLatched"
  | .latchedStatus => "latchedStatus"

/-- The prefix of a channel's names. -/
def ChanId.entryPrefix : ChanId → String
  | .c0 => "ch0."
  | .c1 => "ch1."
  | .c2 => "ch2."

/-- The legal range of a value. -/
def Field.legal (v : Nat) : Field → Bool
  | .mode => v ≤ 5
  | .countFormat => v ≤ 1
  | .accessMode => 1 ≤ v && v ≤ 3
  | .countRegister => v ≤ 65535
  | .currentCount => v ≤ 65536
  | .gate => v ≤ 1
  | .outputLevel => v ≤ 1
  | .latched => v ≤ 1
  | .latchedValue => v ≤ 65535
  | .armed => v ≤ 1
  | .armedUntilTick => true
  | .phase => v ≤ 3
  | .writeHalf => v ≤ 1
  | .writeLow => v ≤ 255
  | .readHalf => v ≤ 1
  | .nullCount => v ≤ 1
  | .statusLatched => v ≤ 1
  | .latchedStatus => v ≤ 255

/-- The code of a phase. -/
def Phase.code : Phase → Nat
  | .unprogrammed => 0
  | .awaitingReload => 1
  | .counting => 2
  | .halted => 3

/-- The phase of a code. -/
def phaseOfCode : Nat → Phase
  | 0 => .unprogrammed
  | 1 => .awaitingReload
  | 2 => .counting
  | _ => .halted

/-- The mode of a number. -/
def modeOfCode : Nat → Mode
  | 0 => .m0
  | 1 => .m1
  | 2 => .m2
  | 3 => .m3
  | 4 => .m4
  | _ => .m5

/-- The access mode of a code. -/
def accessModeOfCode : Nat → AccessMode
  | 1 => .lowOnly
  | 2 => .highOnly
  | _ => .lowHigh

/-- The code of a half. -/
def Half.code : Half → Nat
  | .low => 0
  | .high => 1

/-- The half of a code. -/
def halfOfCode : Nat → Half
  | 0 => .low
  | _ => .high

/-- The value saved for a field; the stored count, not the live one. -/
def Field.encode (ch : Channel) : Field → Nat
  | .mode => ch.mode.code.toNat
  | .countFormat => ch.countFormat.code.toNat
  | .accessMode => ch.accessMode.code.toNat
  | .countRegister => ch.countRegister.toNat
  | .currentCount => ch.currentCount
  | .gate => ch.gate.toNat
  | .outputLevel => ch.outputLevel.toNat
  | .latched => ch.latched.toNat
  | .latchedValue => ch.latchedValue.toNat
  | .armed => ch.armed.toNat
  | .armedUntilTick => ch.armedUntilTick.getD 0
  | .phase => ch.phase.code
  | .writeHalf => ch.writeHalf.code
  | .writeLow => ch.writeLow.toNat
  | .readHalf => ch.readHalf.code
  | .nullCount => ch.nullCount.toNat
  | .statusLatched => ch.statusLatched.toNat
  | .latchedStatus => ch.latchedStatus.toNat

/-! ## Saving (R200) -/

/-- The entries of one channel. -/
def channelEntries (c : ChanId) (ch : Channel) : List Entry :=
  fieldOrder.map fun f => { name := c.entryPrefix ++ f.name, value := f.encode ch }

/-- `Serialize()`: channel 0 first. -/
def serialize (s : State) : List Entry :=
  channelEntries .c0 s.ch0 ++ channelEntries .c1 s.ch1 ++ channelEntries .c2 s.ch2

/-- A step that serializes: the list is returned, nothing changes. -/
def serializeStep (s : State) : StepResult := .next (s.reply (.saved (serialize s)))

/-! ## Restoring (R202) -/

/-- The name and field R201 puts at each of the 54 positions. -/
def entryOrder : List (String × Field) :=
  (fieldOrder.map fun f => (ChanId.c0.entryPrefix ++ f.name, f)) ++
    (fieldOrder.map fun f => (ChanId.c1.entryPrefix ++ f.name, f)) ++
    (fieldOrder.map fun f => (ChanId.c2.entryPrefix ++ f.name, f))

/-- The position of the first missing, extra, misnamed, misplaced or out-of-range entry (R202, R222), if there is
one; `position` is that of the list's head. -/
def firstBadEntry (position : Nat) : List (String × Field) → List Entry → Option Nat
  | [], [] => none
  | [], _ :: _ => some position
  | _ :: _, [] => some position
  | (name, f) :: order, e :: entries =>
    if e.name = name && f.legal e.value then firstBadEntry (position + 1) order entries else some position

/-- A channel from its 18 values, in the order of R201. The pending event is cancelled before one is registered at
the saved tick, so that none is ever doubled (D35); with `armed = 0` entry 11 is ignored. The last case is not reached:
a list that passes the check has 18 values for each channel. -/
def channelOfValues : List Nat → Channel
  | [mode, countFormat, accessMode, countRegister, currentCount, gate, outputLevel, latched, latchedValue, armed,
      armedUntilTick, phase, writeHalf, writeLow, readHalf, nullCount, statusLatched, latchedStatus] =>
    { phase := phaseOfCode phase
      mode := modeOfCode mode
      countFormat := formatOf (countFormat == 1)
      accessMode := accessModeOfCode accessMode
      writeHalf := halfOfCode writeHalf
      writeLow := BitVec.ofNat 8 writeLow
      readHalf := halfOfCode readHalf
      countRegister := BitVec.ofNat 16 countRegister
      currentCount := currentCount
      nullCount := nullCount == 1
      gate := gate == 1
      outputLevel := outputLevel == 1
      latched := latched == 1
      latchedValue := BitVec.ofNat 16 latchedValue
      statusLatched := statusLatched == 1
      latchedStatus := BitVec.ofNat 8 latchedStatus
      armedUntilTick := if armed = 1 then some armedUntilTick else none }
  | _ => Channel.zero

/-- The record of channel `c` in a list: its 18 entries start at position 18 c. -/
def restoredChannel (c : ChanId) (entries : List Entry) : Channel :=
  channelOfValues (((entries.map Entry.value).drop (18 * c.index)).take 18)

/-- `Restore(list)` (R202): all or nothing; no pin call, and `now` is neither read nor written. -/
def restoreStep (entries : List Entry) (s : State) : StepResult :=
  match firstBadEntry 1 entryOrder entries with
  | some position => takeFatal (.checkpointMismatch position) s
  | none =>
    .next
      { s with
        ch0 := restoredChannel .c0 entries
        ch1 := restoredChannel .c1 entries
        ch2 := restoredChannel .c2 entries }

/-! ## Startup (R205) -/

/-- The channel has an event armed before `now`. -/
def Channel.inPast (now : Nat) (ch : Channel) : Bool :=
  match ch.armedUntilTick with
  | none => false
  | some a => decide (a < now)

/-- Some channel has an event armed before `now`. -/
def State.hasPast (s : State) : Bool := s.ch0.inPast s.now || s.ch1.inPast s.now || s.ch2.inPast s.now

/-- `Startup()` (R205): fatal for the first channel with an event in the past; nothing changes otherwise. -/
def startupStep (s : State) : StepResult :=
  if s.ch0.inPast s.now then takeFatal (.checkpointInconsistent .c0) s
  else if s.ch1.inPast s.now then takeFatal (.checkpointInconsistent .c1) s
  else if s.ch2.inPast s.now then takeFatal (.checkpointInconsistent .c2) s
  else .next s

end Sys2Proof.Machine
end

