-- ==== Sys2Proof/Machine/Latch.lean ====
section
/-! DEFINITION. The latches (spec/41_channel_read_and_latch.md R137 to R143): the meanings of `LATCH0` to `LATCH2`,
`RDBK` and `RDBK.RSVD`. -/

namespace Sys2Proof.Machine

/-- `LatchCount(c)` (R137): the first latch wins. -/
def latchCount (now clk : Nat) (ch : Channel) : Channel :=
  if ch.phase = .unprogrammed then ch
  else if ch.latched then ch
  else { ch with latchedValue := enc ch.countFormat (live now clk ch), latched := true }

/-- `LatchStatus(c)` (R141): the first latch wins. -/
def latchStatus (ch : Channel) : Channel :=
  if ch.phase = .unprogrammed then ch
  else if ch.statusLatched then ch
  else { ch with latchedStatus := status ch, statusLatched := true }

/-- What a read-back command does to one channel, `k` being its select bit (R142): the status is taken before the
count; both enable bits are active low (spec/30_encoding.md R88). -/
def readBack (nc ns k : Bool) (now clk : Nat) (ch : Channel) : Channel :=
  if k then
    let afterStatus := if ns then ch else latchStatus ch
    if nc then afterStatus else latchCount now clk afterStatus
  else ch

/-- A counter-latch command for channel `c` (R137; spec/44_front_end.md R181). -/
def busLatch (c : ChanId) (s : State) : StepResult :=
  whileRunning s (.next (s.setChan c (latchCount s.now (s.params.clkPeriod c) (s.chan c))).replyWrote)

/-- `LATCH0` (R138). -/
def execLatch0 (_ignored : BitVec 4) (s : State) : StepResult := busLatch .c0 s

/-- `LATCH1` (R139). -/
def execLatch1 (_ignored : BitVec 4) (s : State) : StepResult := busLatch .c1 s

/-- `LATCH2` (R140). -/
def execLatch2 (_ignored : BitVec 4) (s : State) : StepResult := busLatch .c2 s

/-- One turn of the loop of R142. -/
def readBackChannel (nc ns k : Bool) (c : ChanId) (s : State) : State :=
  s.setChan c (readBack nc ns k s.now (s.params.clkPeriod c) (s.chan c))

/-- `RDBK` (R142): the selected channels, in ascending order. -/
def execRdbk (nc ns k2 k1 k0 : Bool) (s : State) : StepResult :=
  whileRunning s
    (.next (readBackChannel nc ns k2 .c2 (readBackChannel nc ns k1 .c1 (readBackChannel nc ns k0 .c0 s))).replyWrote)

/-- A reserved control byte: the write is ignored, the latency is returned (spec/30_encoding.md R90). -/
def reservedWrite (s : State) : StepResult := whileRunning s (.next s.replyWrote)

/-- `RDBK.RSVD` (R90, R143). -/
def execRdbkRsvd (_ignored : BitVec 5) (s : State) : StepResult := reservedWrite s

end Sys2Proof.Machine
end

