-- ==== Sys2Proof/Machine/Load.lean ====
section
/-! DEFINITION. The count loader (spec/40_channel_program_and_load.md R104, R113 to R118): the fresh load-and-arm
cycle, the data-port write, and the meanings of `WR.CNT0` to `WR.CNT2`. -/

namespace Sys2Proof.Machine

/-- The level a load drives (R104): low in modes 0 and 1, high in mode 3, untouched otherwise. -/
def loadLevel (m : Mode) (d : Drive) : Drive :=
  match m with
  | .m0 | .m1 => d.setOut false
  | .m3 => d.setOut true
  | .m2 | .m4 | .m5 => d

/-- `LoadAndArm(c)` at tick `now` (R104), refused for mode 3 with an effective count of 1 (R118). -/
def loadAndArm (now clk : Nat) (ch : Channel) : Except Stop Drive :=
  if ch.mode = .m3 ∧ eff ch = 1 then .error .squareWaveCountOne
  else
    let loaded := { ch.cancel with currentCount := eff ch, nullCount := false, phase := .counting }
    let driven := loadLevel ch.mode { ch := loaded, calls := [] }
    if ch.mode.levelGated && !ch.gate then .ok driven
    else driven.schedule (now + firstPeriods ch.mode (eff ch) * clk)

/-- A full reload value is assembled (R113): modes 0, 2, 3, 4 load at once, modes 1 and 5 wait for the gate. -/
def countWritten (now clk : Nat) (raw : BitVec 16) (ch : Channel) : Except Stop Drive :=
  let written := { ch with countRegister := countOf ch.countFormat raw, nullCount := true }
  match ch.mode with
  | .m0 | .m2 | .m3 | .m4 => loadAndArm now clk written
  | .m1 | .m5 =>
    .ok { ch := if ch.phase = .awaitingReload then { written with phase := .halted } else written, calls := [] }

/-- `WriteData(c, byte)` (R113). The half not written is zero (spec/30_encoding.md R91). -/
def writeData (now clk : Nat) (byte : Byte) (ch : Channel) : Except Stop Drive :=
  if ch.phase = .unprogrammed then .ok { ch := ch, calls := [] }
  else
    match ch.accessMode, ch.writeHalf with
    | .lowOnly, _ => countWritten now clk (joinBytes 0#8 byte) ch
    | .highOnly, _ => countWritten now clk (joinBytes byte 0#8) ch
    | .lowHigh, .low => .ok { ch := { ch with writeLow := byte, writeHalf := .high }, calls := [] }
    | .lowHigh, .high => countWritten now clk (joinBytes byte ch.writeLow) { ch with writeHalf := .low }

/-- A data-port write of channel `c` (spec/44_front_end.md R180). -/
def busWrite (c : ChanId) (byte : Byte) (s : State) : StepResult :=
  whileRunning s
    (commit c (writeData s.now (s.params.clkPeriod c) byte (s.chan c)) State.replyWrote s)

/-- `WR.CNT0` (R114). -/
def execWrCnt0 (d : Byte) (s : State) : StepResult := busWrite .c0 d s

/-- `WR.CNT1` (R115). -/
def execWrCnt1 (d : Byte) (s : State) : StepResult := busWrite .c1 d s

/-- `WR.CNT2` (R116). -/
def execWrCnt2 (d : Byte) (s : State) : StepResult := busWrite .c2 d s

end Sys2Proof.Machine
end

