-- ==== Sys2Proof/Machine/Program.lean ====
section
/-! DEFINITION. The mode program (spec/40_channel_program_and_load.md R105 to R112): the meanings of the 54 rows
`PROG.C<sc>.<rw>.M<m>` and of the 9 reserved rows `PROG.C<sc>.<rw>.RSVD`. -/

namespace Sys2Proof.Machine

/-- `Program(c, rw, m, bcd)` (R105); `free` is the `any value` that `currentCount` takes. -/
def program (am : AccessMode) (m : Mode) (bcd : Bool) (free : Nat) (ch : Channel) : Drive :=
  Drive.setOut (programLevel m)
    { ch :=
        { ch.cancel with
          latched := false
          statusLatched := false
          accessMode := am
          writeHalf := .low
          readHalf := .low
          mode := m
          countFormat := formatOf bcd
          nullCount := true
          currentCount := free
          phase := .awaitingReload }
      calls := [] }

/-- A mode program of channel `c` (spec/44_front_end.md R181): the latency is returned, one free value is used. -/
def busProgram (c : ChanId) (am : AccessMode) (m : Mode) (bcd : Bool) (s : State) : StepResult :=
  whileRunning s
    (commit c (.ok (program am m bcd (Config.freeCount s.draws).val (s.chan c))) (fun s => s.replyWrote.drawn) s)

/-- A reserved mode program: the write is ignored, the latency is returned (spec/30_encoding.md R90, R112). -/
def reservedProgram (s : State) : StepResult := whileRunning s (.next s.replyWrote)

/-- `PROG.C0.LSB.M0` (R106). -/
def execProgC0LsbM0 (bcd : Bool) (s : State) : StepResult := busProgram .c0 .lowOnly .m0 bcd s

/-- `PROG.C0.LSB.M1` (R107). -/
def execProgC0LsbM1 (bcd : Bool) (s : State) : StepResult := busProgram .c0 .lowOnly .m1 bcd s

/-- `PROG.C0.LSB.M2` (R108). -/
def execProgC0LsbM2 (bcd : Bool) (s : State) : StepResult := busProgram .c0 .lowOnly .m2 bcd s

/-- `PROG.C0.LSB.M3` (R109). -/
def execProgC0LsbM3 (bcd : Bool) (s : State) : StepResult := busProgram .c0 .lowOnly .m3 bcd s

/-- `PROG.C0.LSB.M4` (R110). -/
def execProgC0LsbM4 (bcd : Bool) (s : State) : StepResult := busProgram .c0 .lowOnly .m4 bcd s

/-- `PROG.C0.LSB.M5` (R111). -/
def execProgC0LsbM5 (bcd : Bool) (s : State) : StepResult := busProgram .c0 .lowOnly .m5 bcd s

/-- `PROG.C0.LSB.RSVD` (R90). -/
def execProgC0LsbRsvd (_ignored : BitVec 2) (s : State) : StepResult := reservedProgram s

/-- `PROG.C0.MSB.M0` (R106). -/
def execProgC0MsbM0 (bcd : Bool) (s : State) : StepResult := busProgram .c0 .highOnly .m0 bcd s

/-- `PROG.C0.MSB.M1` (R107). -/
def execProgC0MsbM1 (bcd : Bool) (s : State) : StepResult := busProgram .c0 .highOnly .m1 bcd s

/-- `PROG.C0.MSB.M2` (R108). -/
def execProgC0MsbM2 (bcd : Bool) (s : State) : StepResult := busProgram .c0 .highOnly .m2 bcd s

/-- `PROG.C0.MSB.M3` (R109). -/
def execProgC0MsbM3 (bcd : Bool) (s : State) : StepResult := busProgram .c0 .highOnly .m3 bcd s

/-- `PROG.C0.MSB.M4` (R110). -/
def execProgC0MsbM4 (bcd : Bool) (s : State) : StepResult := busProgram .c0 .highOnly .m4 bcd s

/-- `PROG.C0.MSB.M5` (R111). -/
def execProgC0MsbM5 (bcd : Bool) (s : State) : StepResult := busProgram .c0 .highOnly .m5 bcd s

/-- `PROG.C0.MSB.RSVD` (R90). -/
def execProgC0MsbRsvd (_ignored : BitVec 2) (s : State) : StepResult := reservedProgram s

/-- `PROG.C0.LOHI.M0` (R106). -/
def execProgC0LohiM0 (bcd : Bool) (s : State) : StepResult := busProgram .c0 .lowHigh .m0 bcd s

/-- `PROG.C0.LOHI.M1` (R107). -/
def execProgC0LohiM1 (bcd : Bool) (s : State) : StepResult := busProgram .c0 .lowHigh .m1 bcd s

/-- `PROG.C0.LOHI.M2` (R108). -/
def execProgC0LohiM2 (bcd : Bool) (s : State) : StepResult := busProgram .c0 .lowHigh .m2 bcd s

/-- `PROG.C0.LOHI.M3` (R109). -/
def execProgC0LohiM3 (bcd : Bool) (s : State) : StepResult := busProgram .c0 .lowHigh .m3 bcd s

/-- `PROG.C0.LOHI.M4` (R110). -/
def execProgC0LohiM4 (bcd : Bool) (s : State) : StepResult := busProgram .c0 .lowHigh .m4 bcd s

/-- `PROG.C0.LOHI.M5` (R111). -/
def execProgC0LohiM5 (bcd : Bool) (s : State) : StepResult := busProgram .c0 .lowHigh .m5 bcd s

/-- `PROG.C0.LOHI.RSVD` (R90). -/
def execProgC0LohiRsvd (_ignored : BitVec 2) (s : State) : StepResult := reservedProgram s

/-- `PROG.C1.LSB.M0` (R106). -/
def execProgC1LsbM0 (bcd : Bool) (s : State) : StepResult := busProgram .c1 .lowOnly .m0 bcd s

/-- `PROG.C1.LSB.M1` (R107). -/
def execProgC1LsbM1 (bcd : Bool) (s : State) : StepResult := busProgram .c1 .lowOnly .m1 bcd s

/-- `PROG.C1.LSB.M2` (R108). -/
def execProgC1LsbM2 (bcd : Bool) (s : State) : StepResult := busProgram .c1 .lowOnly .m2 bcd s

/-- `PROG.C1.LSB.M3` (R109). -/
def execProgC1LsbM3 (bcd : Bool) (s : State) : StepResult := busProgram .c1 .lowOnly .m3 bcd s

/-- `PROG.C1.LSB.M4` (R110). -/
def execProgC1LsbM4 (bcd : Bool) (s : State) : StepResult := busProgram .c1 .lowOnly .m4 bcd s

/-- `PROG.C1.LSB.M5` (R111). -/
def execProgC1LsbM5 (bcd : Bool) (s : State) : StepResult := busProgram .c1 .lowOnly .m5 bcd s

/-- `PROG.C1.LSB.RSVD` (R90). -/
def execProgC1LsbRsvd (_ignored : BitVec 2) (s : State) : StepResult := reservedProgram s

/-- `PROG.C1.MSB.M0` (R106). -/
def execProgC1MsbM0 (bcd : Bool) (s : State) : StepResult := busProgram .c1 .highOnly .m0 bcd s

/-- `PROG.C1.MSB.M1` (R107). -/
def execProgC1MsbM1 (bcd : Bool) (s : State) : StepResult := busProgram .c1 .highOnly .m1 bcd s

/-- `PROG.C1.MSB.M2` (R108). -/
def execProgC1MsbM2 (bcd : Bool) (s : State) : StepResult := busProgram .c1 .highOnly .m2 bcd s

/-- `PROG.C1.MSB.M3` (R109). -/
def execProgC1MsbM3 (bcd : Bool) (s : State) : StepResult := busProgram .c1 .highOnly .m3 bcd s

/-- `PROG.C1.MSB.M4` (R110). -/
def execProgC1MsbM4 (bcd : Bool) (s : State) : StepResult := busProgram .c1 .highOnly .m4 bcd s

/-- `PROG.C1.MSB.M5` (R111). -/
def execProgC1MsbM5 (bcd : Bool) (s : State) : StepResult := busProgram .c1 .highOnly .m5 bcd s

/-- `PROG.C1.MSB.RSVD` (R90). -/
def execProgC1MsbRsvd (_ignored : BitVec 2) (s : State) : StepResult := reservedProgram s

/-- `PROG.C1.LOHI.M0` (R106). -/
def execProgC1LohiM0 (bcd : Bool) (s : State) : StepResult := busProgram .c1 .lowHigh .m0 bcd s

/-- `PROG.C1.LOHI.M1` (R107). -/
def execProgC1LohiM1 (bcd : Bool) (s : State) : StepResult := busProgram .c1 .lowHigh .m1 bcd s

/-- `PROG.C1.LOHI.M2` (R108). -/
def execProgC1LohiM2 (bcd : Bool) (s : State) : StepResult := busProgram .c1 .lowHigh .m2 bcd s

/-- `PROG.C1.LOHI.M3` (R109). -/
def execProgC1LohiM3 (bcd : Bool) (s : State) : StepResult := busProgram .c1 .lowHigh .m3 bcd s

/-- `PROG.C1.LOHI.M4` (R110). -/
def execProgC1LohiM4 (bcd : Bool) (s : State) : StepResult := busProgram .c1 .lowHigh .m4 bcd s

/-- `PROG.C1.LOHI.M5` (R111). -/
def execProgC1LohiM5 (bcd : Bool) (s : State) : StepResult := busProgram .c1 .lowHigh .m5 bcd s

/-- `PROG.C1.LOHI.RSVD` (R90). -/
def execProgC1LohiRsvd (_ignored : BitVec 2) (s : State) : StepResult := reservedProgram s

/-- `PROG.C2.LSB.M0` (R106). -/
def execProgC2LsbM0 (bcd : Bool) (s : State) : StepResult := busProgram .c2 .lowOnly .m0 bcd s

/-- `PROG.C2.LSB.M1` (R107). -/
def execProgC2LsbM1 (bcd : Bool) (s : State) : StepResult := busProgram .c2 .lowOnly .m1 bcd s

/-- `PROG.C2.LSB.M2` (R108). -/
def execProgC2LsbM2 (bcd : Bool) (s : State) : StepResult := busProgram .c2 .lowOnly .m2 bcd s

/-- `PROG.C2.LSB.M3` (R109). -/
def execProgC2LsbM3 (bcd : Bool) (s : State) : StepResult := busProgram .c2 .lowOnly .m3 bcd s

/-- `PROG.C2.LSB.M4` (R110). -/
def execProgC2LsbM4 (bcd : Bool) (s : State) : StepResult := busProgram .c2 .lowOnly .m4 bcd s

/-- `PROG.C2.LSB.M5` (R111). -/
def execProgC2LsbM5 (bcd : Bool) (s : State) : StepResult := busProgram .c2 .lowOnly .m5 bcd s

/-- `PROG.C2.LSB.RSVD` (R90). -/
def execProgC2LsbRsvd (_ignored : BitVec 2) (s : State) : StepResult := reservedProgram s

/-- `PROG.C2.MSB.M0` (R106). -/
def execProgC2MsbM0 (bcd : Bool) (s : State) : StepResult := busProgram .c2 .highOnly .m0 bcd s

/-- `PROG.C2.MSB.M1` (R107). -/
def execProgC2MsbM1 (bcd : Bool) (s : State) : StepResult := busProgram .c2 .highOnly .m1 bcd s

/-- `PROG.C2.MSB.M2` (R108). -/
def execProgC2MsbM2 (bcd : Bool) (s : State) : StepResult := busProgram .c2 .highOnly .m2 bcd s

/-- `PROG.C2.MSB.M3` (R109). -/
def execProgC2MsbM3 (bcd : Bool) (s : State) : StepResult := busProgram .c2 .highOnly .m3 bcd s

/-- `PROG.C2.MSB.M4` (R110). -/
def execProgC2MsbM4 (bcd : Bool) (s : State) : StepResult := busProgram .c2 .highOnly .m4 bcd s

/-- `PROG.C2.MSB.M5` (R111). -/
def execProgC2MsbM5 (bcd : Bool) (s : State) : StepResult := busProgram .c2 .highOnly .m5 bcd s

/-- `PROG.C2.MSB.RSVD` (R90). -/
def execProgC2MsbRsvd (_ignored : BitVec 2) (s : State) : StepResult := reservedProgram s

/-- `PROG.C2.LOHI.M0` (R106). -/
def execProgC2LohiM0 (bcd : Bool) (s : State) : StepResult := busProgram .c2 .lowHigh .m0 bcd s

/-- `PROG.C2.LOHI.M1` (R107). -/
def execProgC2LohiM1 (bcd : Bool) (s : State) : StepResult := busProgram .c2 .lowHigh .m1 bcd s

/-- `PROG.C2.LOHI.M2` (R108). -/
def execProgC2LohiM2 (bcd : Bool) (s : State) : StepResult := busProgram .c2 .lowHigh .m2 bcd s

/-- `PROG.C2.LOHI.M3` (R109). -/
def execProgC2LohiM3 (bcd : Bool) (s : State) : StepResult := busProgram .c2 .lowHigh .m3 bcd s

/-- `PROG.C2.LOHI.M4` (R110). -/
def execProgC2LohiM4 (bcd : Bool) (s : State) : StepResult := busProgram .c2 .lowHigh .m4 bcd s

/-- `PROG.C2.LOHI.M5` (R111). -/
def execProgC2LohiM5 (bcd : Bool) (s : State) : StepResult := busProgram .c2 .lowHigh .m5 bcd s

/-- `PROG.C2.LOHI.RSVD` (R90). -/
def execProgC2LohiRsvd (_ignored : BitVec 2) (s : State) : StepResult := reservedProgram s

end Sys2Proof.Machine
end

