-- ==== Sys2Proof/Machine/Read.lean ====
section
/-! DEFINITION. Reads (spec/41_channel_read_and_latch.md R132 to R136): the data-port read and the meanings of
`RD.CNT0` to `RD.CNT2` and `RD.CTL`. -/

namespace Sys2Proof.Machine

/-- The channel after a read of the count (R132): in `LowHigh` the half toggles, and a latch is released by the read
that completes the sequence. -/
def countRead (ch : Channel) : Channel :=
  match ch.accessMode, ch.readHalf with
  | .lowOnly, _ => { ch with latched := false }
  | .highOnly, _ => { ch with latched := false }
  | .lowHigh, .low => { ch with readHalf := .high }
  | .lowHigh, .high => { ch with readHalf := .low, latched := false }

/-- The 16 bits a read of the count takes its byte from (R132): the latch if one is pending, else the live count. -/
def visibleCount (now clk : Nat) (ch : Channel) : BitVec 16 :=
  if ch.latched then ch.latchedValue else enc ch.countFormat (live now clk ch)

/-- `ReadData(c)` (R132): the channel afterwards and the byte returned; `free` is the `any value` of an `Unprogrammed`
channel. -/
def readData (now clk : Nat) (free : Byte) (ch : Channel) : Channel × Byte :=
  if ch.phase = .unprogrammed then (ch, free)
  else if ch.statusLatched then ({ ch with statusLatched := false }, ch.latchedStatus)
  else (countRead ch, byteOf ch.accessMode ch.readHalf (visibleCount now clk ch))

/-- The free value of a read, if it takes one, is used up (R14). -/
def drawnByRead (ch : Channel) (s : State) : State :=
  match ch.phase with
  | .unprogrammed => s.drawn
  | .awaitingReload | .counting | .halted => s

/-- A data-port read of channel `c` (spec/44_front_end.md R180). -/
def busRead (c : ChanId) (s : State) : StepResult :=
  let result := readData s.now (s.params.clkPeriod c) (Config.freeByte s.draws) (s.chan c)
  whileRunning s (.next (drawnByRead (s.chan c) ((s.setChan c result.1).replyRead result.2)))

/-- `RD.CNT0` (R133). -/
def execRdCnt0 (_d : Byte) (s : State) : StepResult := busRead .c0 s

/-- `RD.CNT1` (R134). -/
def execRdCnt1 (_d : Byte) (s : State) : StepResult := busRead .c1 s

/-- `RD.CNT2` (R135). -/
def execRdCnt2 (_d : Byte) (s : State) : StepResult := busRead .c2 s

/-- `RD.CTL` (R136): any value, and no field changes. -/
def execRdCtl (_d : Byte) (s : State) : StepResult :=
  whileRunning s (.next (s.replyRead (Config.freeByte s.draws)).drawn)

end Sys2Proof.Machine
end

