-- ==== Sys2Proof/Machine/Dispatch.lean ====
section
/-! DEFINITION. One arm per constructor of Instr: the meaning of a decoded transaction (spec/44_front_end.md R180, R181). -/

namespace Sys2Proof.Machine

def exec (i : Instr) (s : State) : Host.Outcome State Fault Refusal :=
  match i with
  | .rdCnt0 d => Sys2Proof.Machine.execRdCnt0 d s
  | .rdCnt1 d => Sys2Proof.Machine.execRdCnt1 d s
  | .rdCnt2 d => Sys2Proof.Machine.execRdCnt2 d s
  | .rdCtl d => Sys2Proof.Machine.execRdCtl d s
  | .wrCnt0 d => Sys2Proof.Machine.execWrCnt0 d s
  | .wrCnt1 d => Sys2Proof.Machine.execWrCnt1 d s
  | .wrCnt2 d => Sys2Proof.Machine.execWrCnt2 d s
  | .latch0 ignored => Sys2Proof.Machine.execLatch0 ignored s
  | .latch1 ignored => Sys2Proof.Machine.execLatch1 ignored s
  | .latch2 ignored => Sys2Proof.Machine.execLatch2 ignored s
  | .progC0LsbM0 bcd => Sys2Proof.Machine.execProgC0LsbM0 bcd s
  | .progC0LsbM1 bcd => Sys2Proof.Machine.execProgC0LsbM1 bcd s
  | .progC0LsbM2 bcd => Sys2Proof.Machine.execProgC0LsbM2 bcd s
  | .progC0LsbM3 bcd => Sys2Proof.Machine.execProgC0LsbM3 bcd s
  | .progC0LsbM4 bcd => Sys2Proof.Machine.execProgC0LsbM4 bcd s
  | .progC0LsbM5 bcd => Sys2Proof.Machine.execProgC0LsbM5 bcd s
  | .progC0LsbRsvd ignored => Sys2Proof.Machine.execProgC0LsbRsvd ignored s
  | .progC0MsbM0 bcd => Sys2Proof.Machine.execProgC0MsbM0 bcd s
  | .progC0MsbM1 bcd => Sys2Proof.Machine.execProgC0MsbM1 bcd s
  | .progC0MsbM2 bcd => Sys2Proof.Machine.execProgC0MsbM2 bcd s
  | .progC0MsbM3 bcd => Sys2Proof.Machine.execProgC0MsbM3 bcd s
  | .progC0MsbM4 bcd => Sys2Proof.Machine.execProgC0MsbM4 bcd s
  | .progC0MsbM5 bcd => Sys2Proof.Machine.execProgC0MsbM5 bcd s
  | .progC0MsbRsvd ignored => Sys2Proof.Machine.execProgC0MsbRsvd ignored s
  | .progC0LohiM0 bcd => Sys2Proof.Machine.execProgC0LohiM0 bcd s
  | .progC0LohiM1 bcd => Sys2Proof.Machine.execProgC0LohiM1 bcd s
  | .progC0LohiM2 bcd => Sys2Proof.Machine.execProgC0LohiM2 bcd s
  | .progC0LohiM3 bcd => Sys2Proof.Machine.execProgC0LohiM3 bcd s
  | .progC0LohiM4 bcd => Sys2Proof.Machine.execProgC0LohiM4 bcd s
  | .progC0LohiM5 bcd => Sys2Proof.Machine.execProgC0LohiM5 bcd s
  | .progC0LohiRsvd ignored => Sys2Proof.Machine.execProgC0LohiRsvd ignored s
  | .progC1LsbM0 bcd => Sys2Proof.Machine.execProgC1LsbM0 bcd s
  | .progC1LsbM1 bcd => Sys2Proof.Machine.execProgC1LsbM1 bcd s
  | .progC1LsbM2 bcd => Sys2Proof.Machine.execProgC1LsbM2 bcd s
  | .progC1LsbM3 bcd => Sys2Proof.Machine.execProgC1LsbM3 bcd s
  | .progC1LsbM4 bcd => Sys2Proof.Machine.execProgC1LsbM4 bcd s
  | .progC1LsbM5 bcd => Sys2Proof.Machine.execProgC1LsbM5 bcd s
  | .progC1LsbRsvd ignored => Sys2Proof.Machine.execProgC1LsbRsvd ignored s
  | .progC1MsbM0 bcd => Sys2Proof.Machine.execProgC1MsbM0 bcd s
  | .progC1MsbM1 bcd => Sys2Proof.Machine.execProgC1MsbM1 bcd s
  | .progC1MsbM2 bcd => Sys2Proof.Machine.execProgC1MsbM2 bcd s
  | .progC1MsbM3 bcd => Sys2Proof.Machine.execProgC1MsbM3 bcd s
  | .progC1MsbM4 bcd => Sys2Proof.Machine.execProgC1MsbM4 bcd s
  | .progC1MsbM5 bcd => Sys2Proof.Machine.execProgC1MsbM5 bcd s
  | .progC1MsbRsvd ignored => Sys2Proof.Machine.execProgC1MsbRsvd ignored s
  | .progC1LohiM0 bcd => Sys2Proof.Machine.execProgC1LohiM0 bcd s
  | .progC1LohiM1 bcd => Sys2Proof.Machine.execProgC1LohiM1 bcd s
  | .progC1LohiM2 bcd => Sys2Proof.Machine.execProgC1LohiM2 bcd s
  | .progC1LohiM3 bcd => Sys2Proof.Machine.execProgC1LohiM3 bcd s
  | .progC1LohiM4 bcd => Sys2Proof.Machine.execProgC1LohiM4 bcd s
  | .progC1LohiM5 bcd => Sys2Proof.Machine.execProgC1LohiM5 bcd s
  | .progC1LohiRsvd ignored => Sys2Proof.Machine.execProgC1LohiRsvd ignored s
  | .progC2LsbM0 bcd => Sys2Proof.Machine.execProgC2LsbM0 bcd s
  | .progC2LsbM1 bcd => Sys2Proof.Machine.execProgC2LsbM1 bcd s
  | .progC2LsbM2 bcd => Sys2Proof.Machine.execProgC2LsbM2 bcd s
  | .progC2LsbM3 bcd => Sys2Proof.Machine.execProgC2LsbM3 bcd s
  | .progC2LsbM4 bcd => Sys2Proof.Machine.execProgC2LsbM4 bcd s
  | .progC2LsbM5 bcd => Sys2Proof.Machine.execProgC2LsbM5 bcd s
  | .progC2LsbRsvd ignored => Sys2Proof.Machine.execProgC2LsbRsvd ignored s
  | .progC2MsbM0 bcd => Sys2Proof.Machine.execProgC2MsbM0 bcd s
  | .progC2MsbM1 bcd => Sys2Proof.Machine.execProgC2MsbM1 bcd s
  | .progC2MsbM2 bcd => Sys2Proof.Machine.execProgC2MsbM2 bcd s
  | .progC2MsbM3 bcd => Sys2Proof.Machine.execProgC2MsbM3 bcd s
  | .progC2MsbM4 bcd => Sys2Proof.Machine.execProgC2MsbM4 bcd s
  | .progC2MsbM5 bcd => Sys2Proof.Machine.execProgC2MsbM5 bcd s
  | .progC2MsbRsvd ignored => Sys2Proof.Machine.execProgC2MsbRsvd ignored s
  | .progC2LohiM0 bcd => Sys2Proof.Machine.execProgC2LohiM0 bcd s
  | .progC2LohiM1 bcd => Sys2Proof.Machine.execProgC2LohiM1 bcd s
  | .progC2LohiM2 bcd => Sys2Proof.Machine.execProgC2LohiM2 bcd s
  | .progC2LohiM3 bcd => Sys2Proof.Machine.execProgC2LohiM3 bcd s
  | .progC2LohiM4 bcd => Sys2Proof.Machine.execProgC2LohiM4 bcd s
  | .progC2LohiM5 bcd => Sys2Proof.Machine.execProgC2LohiM5 bcd s
  | .progC2LohiRsvd ignored => Sys2Proof.Machine.execProgC2LohiRsvd ignored s
  | .rdbk nc ns k2 k1 k0 => Sys2Proof.Machine.execRdbk nc ns k2 k1 k0 s
  | .rdbkRsvd ignored => Sys2Proof.Machine.execRdbkRsvd ignored s

end Sys2Proof.Machine
end

