-- ==== Sys2Proof/Machine/Expiry.lean ====
section
/-! DEFINITION. Time and expiry (spec/42_channel_expiry_modes.md R150 to R157): which event is due next, what an expiry
does in each mode, and the step that takes one. -/

namespace Sys2Proof.Machine

/-- The end of a one-shot run of modes 0 and 1 (R152, R153): the count is 0, the output goes high, the channel halts. -/
def endOneShot (ch : Channel) : Drive :=
  let d := Drive.setOut true { ch := { ch with currentCount := 0 }, calls := [] }
  { d with ch := { d.ch with phase := .halted } }

/-- The strobe of modes 4 and 5 (R156, R157): the count is 0, one low pulse, the channel halts. -/
def endStrobe (ch : Channel) : Drive :=
  let d := Drive.setOut true (Drive.setOut false { ch := { ch with currentCount := 0 }, calls := [] })
  { d with ch := { d.ch with phase := .halted } }

/-- Expiry in mode 0, interrupt on terminal count (R152). -/
def expiryMode0 (ch : Channel) : Drive := endOneShot ch

/-- Expiry in mode 1, hardware-retriggerable one-shot (R153). -/
def expiryMode1 (ch : Channel) : Drive := endOneShot ch

/-- Expiry in mode 4, software-triggered strobe (R156). -/
def expiryMode4 (ch : Channel) : Drive := endStrobe ch

/-- Expiry in mode 5, hardware-triggered strobe (R157). -/
def expiryMode5 (ch : Channel) : Drive := endStrobe ch

/-- Expiry in mode 2 (R154): the low pulse, the reload and the next event. -/
def expiryMode2 (now clk n : Nat) (ch : Channel) : Except Stop Drive :=
  let d := Drive.setOut true (Drive.setOut false { ch := ch, calls := [] })
  Drive.schedule (now + n * clk) { d with ch := { d.ch with currentCount := n } }

/-- Expiry in mode 3 (R155): the output toggles; the count is reloaded only at the end of the low half. -/
def expiryMode3 (now clk n : Nat) (ch : Channel) : Except Stop Drive :=
  if ch.outputLevel then
    let d := Drive.setOut false { ch := ch, calls := [] }
    Drive.schedule (now + n / 2 * clk) { d with ch := { d.ch with currentCount := n / 2 } }
  else
    let d := Drive.setOut true { ch := ch, calls := [] }
    Drive.schedule (now + (n + 1) / 2 * clk) { d with ch := { d.ch with currentCount := n } }

/-- `Expiry(c)` at tick `now` (R151): the event has fired, nothing is pending. -/
def expiry (now clk : Nat) (ch : Channel) : Except Stop Drive :=
  let fired := ch.cancel
  match ch.mode with
  | .m0 => .ok (expiryMode0 fired)
  | .m1 => .ok (expiryMode1 fired)
  | .m2 => expiryMode2 now clk (eff ch) fired
  | .m3 => expiryMode3 now clk (eff ch) fired
  | .m4 => .ok (expiryMode4 fired)
  | .m5 => .ok (expiryMode5 fired)

/-- The event of channel `c`, if it is due by tick `t` (R150: the set `D`). -/
def dueBy (t : Nat) (c : ChanId) (s : State) : Option (Nat × ChanId) :=
  match (s.chan c).armedUntilTick with
  | none => none
  | some a => if a ≤ t then some (a, c) else none

/-- The earlier of two events; at one tick the first, whose channel number is the lesser (R150, R229). -/
def earlier (x y : Option (Nat × ChanId)) : Option (Nat × ChanId) :=
  match x, y with
  | none, y => y
  | some x, none => some x
  | some x, some y => if x.1 ≤ y.1 then some x else some y

/-- The event R150 fires next on the way to tick `t`: its tick and channel. -/
def nextDue (t : Nat) (s : State) : Option (Nat × ChanId) :=
  earlier (dueBy t .c0 s) (earlier (dueBy t .c1 s) (dueBy t .c2 s))

/-- One turn of the loop of R150: `now <- A`, then `Expiry(c)`. DEDUCED (log 8, safe): an event before `now` would move
time back, which R10 excludes; only a restore outside its contract arms one (spec/93_implementation_defined.md U12,
U13), and the step is refused. -/
def expireStep (a : Nat) (c : ChanId) (s : State) : StepResult :=
  if a < s.now then .refused .staleEvent
  else commit c (expiry a (s.params.clkPeriod c) (s.chan c)) id { s with now := a }

/-- A step of another agent at the current tick, after every expiry due by it (spec/20_memory.md R69): while one is
due, the machine takes that expiry instead, and the call stays pending. -/
def afterExpiries (s : State) (k : StepResult) : StepResult :=
  match nextDue s.now s with
  | some (a, c) => expireStep a c s
  | none => k

/-- `Advance(t)` (R150). DESIGN CHOICE (log 13, safe): one step is one turn of its loop, that is the next due expiry if
there is one, the call staying pending, else time moves to `t` and the call is done. An earlier tick is refused
(log 8). -/
def advanceStep (t : Nat) (rest : List Input) (s : State) : StepResult :=
  if t < s.now then .refused .timeBackwards
  else
    match nextDue t s with
    | some (a, c) => expireStep a c s
    | none => .next { s with now := t, pending := rest }

end Sys2Proof.Machine
end

