-- ==== Sys2Proof/Machine/Gate.lean ====
section
/-! DEFINITION. The gate input (spec/43_channel_gate.md R170 to R173). -/

namespace Sys2Proof.Machine

/-- Gate falls in a level-gated mode (R171): an armed channel is paused at its live count. -/
def gateFall (now clk : Nat) (ch : Channel) : Drive :=
  { ch := if ch.armed then { ch.cancel with currentCount := live now clk ch } else ch, calls := [] }

/-- Gate rises in a level-gated mode (R172): a paused channel resumes from its frozen count. -/
def gateRise (now clk : Nat) (ch : Channel) : Except Stop Drive :=
  if ch.paused then Drive.schedule (now + (ch.currentCount - lowHalfToCome ch) * clk) { ch := ch, calls := [] }
  else .ok { ch := ch, calls := [] }

/-- `SetGate(c, level)` (R170): the level is always stored; an edge acts once a count has been written. -/
def setGate (now clk : Nat) (level : Bool) (ch : Channel) : Except Stop Drive :=
  let stored := { ch with gate := level }
  if ch.phase = .unprogrammed ∨ ch.phase = .awaitingReload ∨ ch.gate = level then .ok { ch := stored, calls := [] }
  else if ch.mode.levelGated then
    if level then gateRise now clk stored else .ok (gateFall now clk stored)
  else if level then loadAndArm now clk stored
  else .ok { ch := stored, calls := [] }

/-- A step of the gate driver. -/
def gateStep (c : ChanId) (level : Bool) (s : State) : StepResult :=
  commit c (setGate s.now (s.params.clkPeriod c) level (s.chan c)) id s

end Sys2Proof.Machine
end

