-- ==== Sys2Proof/Machine/Agents.lean ====
section
/-! DEFINITION. The steps of the agents (spec/00_scope.md R8) and the one total order they take them in
(spec/20_memory.md R68, R69): the first pending call is taken, after the expiries due by its tick. -/

namespace Sys2Proof.Machine

/-- `IoAccess` (spec/44_front_end.md R180): the check of size and address comes before everything else, then the
decoded instruction is run. -/
def ioAccess (t : Transaction) (s : State) : StepResult :=
  match decode t with
  | .error _ => takeFatal (.badAccess t.address t.size) s
  | .ok i => exec i s

/-- A call is taken from the head of the list of pending calls. -/
def State.withPending (rest : List Input) (s : State) : State := { s with pending := rest }

/-- A `Startup` call: every expiry due at `now` comes before it, like before an access (spec/20_memory.md R69). DEDUCED
(log 10, unsafe): an event armed before `now` is not fired first, since it is what `Startup` is fatal for
(spec/46_checkpoint.md R205). -/
def startupCall (rest : List Input) (s : State) : StepResult :=
  if s.hasPast then startupStep (s.withPending rest) else afterExpiries s (startupStep (s.withPending rest))

/-- One step of the machine. With no call pending nothing happens: the block has no clock of its own. `Restore` is not
among the steps R69 and R150 put an expiry before: it cancels what is armed (spec/46_checkpoint.md R202). -/
def takeStep (s : State) : StepResult :=
  whileRunning s
    (match s.pending with
    | [] => .next s
    | .advance t :: rest => advanceStep t rest s
    | .bus t :: rest => afterExpiries s (ioAccess t (s.withPending rest))
    | .gate c level :: rest => afterExpiries s (gateStep c level (s.withPending rest))
    | .serialize :: rest => afterExpiries s (serializeStep (s.withPending rest))
    | .restore entries :: rest => restoreStep entries (s.withPending rest)
    | .startup :: rest => startupCall rest s)

/-- The bus host issues transaction `t` before every other pending call. -/
def placeTransaction (t : Transaction) (s : State) : State := s.withPending (.bus t :: s.pending)

/-- The bus host issues the transaction whose word is `w`, numbered as the opcode table numbers it. -/
def placeWord (nbits w : Nat) (s : State) : State :=
  placeTransaction (wordTransaction (BitVec.ofNat 11 (w % 2 ^ nbits))) s

end Sys2Proof.Machine
end

