-- ==== Sys2Proof/Machine/Step.lean ====
section
/-! DEFINITION. The step of the machine, and the placing of an instruction where the next step takes it. -/

namespace Sys2Proof.Machine

/-- One step: the next of the one total order (spec/20_memory.md R68). -/
def step (s : State) : Host.Outcome State Fault Refusal := takeStep s

/-- DESIGN CHOICE (log 1). `s` with the transaction of word `w` issued by the bus host before every other call, so that
the next step takes it (where no expiry is due first, R69). -/
def State.withFetchWord (s : State) (nbits w : Nat) : State := placeWord nbits w s

end Sys2Proof.Machine
end

