-- ==== Sys2Proof/Safety.lean ====
section
/-! DEFINITION. What a sound state is: the invariants of spec/10_state.md R42, channel by channel, and the bounds they
rest on; which calls may stand in the list of pending calls; when a run is safe. -/

namespace Sys2Proof.Machine

/-! ## The invariants of one channel (R42) -/

/-- (I1) `Armed(c)` implies `phase = Counting`. -/
abbrev Channel.I1 (ch : Channel) : Prop := ch.armed = true → ch.phase = .counting

/-- (I2) `Paused(c)` implies `LevelGated(c)` and `gate = 0`. -/
abbrev Channel.I2 (ch : Channel) : Prop := ch.paused = true → ch.mode.levelGated = true ∧ ch.gate = false

/-- (I3) `Armed(c)` and `LevelGated(c)` imply `gate = 1`. -/
abbrev Channel.I3 (ch : Channel) : Prop := ch.armed = true → ch.mode.levelGated = true → ch.gate = true

/-- (I5) `phase = Unprogrammed` implies not `Armed(c)`, `latched = 0`, `statusLatched = 0`. -/
abbrev Channel.I5 (ch : Channel) : Prop :=
  ch.phase = .unprogrammed → ch.armed = false ∧ ch.latched = false ∧ ch.statusLatched = false

/-- (I6) `accessMode ≠ LowHigh` implies both halves `Low`, in every phase but `Unprogrammed`. -/
abbrev Channel.I6 (ch : Channel) : Prop :=
  ch.phase ≠ .unprogrammed → ch.accessMode ≠ .lowHigh → ch.writeHalf = .low ∧ ch.readHalf = .low

/-- (I7) `countFormat = BCD` implies `countRegister <= 9999`, once a complete count has been written. -/
abbrev Channel.I7 (ch : Channel) : Prop :=
  ch.phase = .counting ∨ ch.phase = .halted → ch.countFormat = .bcd → ch.countRegister.toNat ≤ 9999

/-- (I8) `Paused(c)` implies `1 <= currentCount <= 65536`; in mode 3 with the output high, more than the low half. -/
abbrev Channel.I8 (ch : Channel) : Prop :=
  ch.paused = true →
    1 ≤ ch.currentCount ∧ ch.currentCount ≤ 65536 ∧
      (ch.mode = .m3 → ch.outputLevel = true → eff ch / 2 < ch.currentCount)

/-- (I9) In mode 3 with `phase = Counting`, `Eff(c) >= 2`. -/
abbrev Channel.I9 (ch : Channel) : Prop := ch.mode = .m3 → ch.phase = .counting → 2 ≤ eff ch

/-- R28: the stored count is at most 65536. -/
abbrev Channel.CountBound (ch : Channel) : Prop := ch.currentCount ≤ 65536

/-- The most periods an armed channel can have left: the half in mode 3, else a full count. -/
def Channel.mostPeriods (ch : Channel) : Nat :=
  match ch.mode, ch.outputLevel with
  | .m3, true => (eff ch + 1) / 2
  | .m3, false => eff ch / 2
  | _, _ => 65536

/-- DEDUCED (log 9). What (I8) rests on: an event is no further off than the run it ends, and a paused mode 3 channel
holds no more than the full count (output high) or the low half (output low). -/
abbrev Channel.RunBound (now clk : Nat) (ch : Channel) : Prop :=
  (∀ a ∈ ch.armedUntilTick, a ≤ now + ch.mostPeriods * clk) ∧
    (ch.paused = true → ch.mode = .m3 →
      ch.currentCount ≤ if ch.outputLevel then eff ch else eff ch / 2)

/-- The invariants of one channel, but (I4), which speaks of the tick (`State.NoStaleEvent`). -/
abbrev Channel.Inv (now clk : Nat) (ch : Channel) : Prop :=
  ch.I1 ∧ ch.I2 ∧ ch.I3 ∧ ch.I5 ∧ ch.I6 ∧ ch.I7 ∧ ch.I8 ∧ ch.I9 ∧ ch.CountBound ∧ ch.RunBound now clk

/-! ## The invariants of the device -/

/-- R7: every input-clock period is at least one tick. -/
abbrev Params.Valid (p : Params) : Prop := 1 ≤ p.clkPeriod0 ∧ 1 ≤ p.clkPeriod1 ∧ 1 ≤ p.clkPeriod2

/-- R42: "a restore of a hand-made list that breaks one is outside this spec": the channels a pending `Restore` brings
keep the invariants (a malformed list brings none). -/
abbrev Input.Sound (s : State) : Input → Prop
  | .restore entries =>
    firstBadEntry 1 entryOrder entries = none →
    (restoredChannel .c0 entries).Inv s.now s.params.clkPeriod0 ∧
      (restoredChannel .c1 entries).Inv s.now s.params.clkPeriod1 ∧
      (restoredChannel .c2 entries).Inv s.now s.params.clkPeriod2
  | .bus _ => True
  | .gate _ _ => True
  | .advance _ => True
  | .serialize => True
  | .startup => True

/-- The invariants of R42 but (I4), for all three channels, with what they rest on. -/
def State.Inv (s : State) : Prop :=
  s.params.Valid ∧
    (s.ch0.Inv s.now s.params.clkPeriod0 ∧ s.ch1.Inv s.now s.params.clkPeriod1 ∧
      s.ch2.Inv s.now s.params.clkPeriod2) ∧
    ∀ i ∈ s.pending, i.Sound s

/-- (I4) in the form every step keeps: no event is armed at a tick before `now`. An event armed AT `now` is taken before
any access (R69), so that at every access `armedUntilTick > now`. -/
def State.NoStaleEvent (s : State) : Prop := ∀ c, ∀ a ∈ (s.chan c).armedUntilTick, s.now ≤ a

/-! ## Safe runs -/

/-- No fatal code is recorded: "a state with `fatalCode ≠ none` is never the end state of a successful run" (R225). -/
abbrev State.Running (s : State) : Prop := s.fatalCode = none

/-- `k` steps from `s` end in a state, and it records no fatal code. -/
def SafeRun (k : Nat) (s : State) : Prop :=
  ∃ t, Sys2Proof.core.run k s = .next t ∧ State.Running t

end Sys2Proof.Machine
end

