-- ==== Sys2Proof/Certificates/Slice0/Obligations.lean ====
section
/-! DEFINITION. The statements for the provers, each a rule of spec/ (or an inference from several) about the model.
The helpers under `Sys2Proof.Spec` name instructions by their fields and write down what a rule says in its own terms. -/

namespace Sys2Proof.Spec

open Sys2Proof.Machine

/-! ## Instructions by their fields -/

/-- `RD.CNT<c>`. -/
def readInstr (c : ChanId) (d : Byte) : Instr :=
  match c with
  | .c0 => .rdCnt0 d
  | .c1 => .rdCnt1 d
  | .c2 => .rdCnt2 d

/-- `WR.CNT<c>`. -/
def writeInstr (c : ChanId) (d : Byte) : Instr :=
  match c with
  | .c0 => .wrCnt0 d
  | .c1 => .wrCnt1 d
  | .c2 => .wrCnt2 d

/-- `LATCH<c>`. -/
def latchInstr (c : ChanId) (ignored : BitVec 4) : Instr :=
  match c with
  | .c0 => .latch0 ignored
  | .c1 => .latch1 ignored
  | .c2 => .latch2 ignored

/-- `PROG.C<c>.<am>.M<m>`: the 54 rows. -/
def programInstr (c : ChanId) (am : AccessMode) (m : Mode) (bcd : Bool) : Instr :=
  match c, am, m with
  | .c0, .lowOnly, .m0 => .progC0LsbM0 bcd
  | .c0, .lowOnly, .m1 => .progC0LsbM1 bcd
  | .c0, .lowOnly, .m2 => .progC0LsbM2 bcd
  | .c0, .lowOnly, .m3 => .progC0LsbM3 bcd
  | .c0, .lowOnly, .m4 => .progC0LsbM4 bcd
  | .c0, .lowOnly, .m5 => .progC0LsbM5 bcd
  | .c0, .highOnly, .m0 => .progC0MsbM0 bcd
  | .c0, .highOnly, .m1 => .progC0MsbM1 bcd
  | .c0, .highOnly, .m2 => .progC0MsbM2 bcd
  | .c0, .highOnly, .m3 => .progC0MsbM3 bcd
  | .c0, .highOnly, .m4 => .progC0MsbM4 bcd
  | .c0, .highOnly, .m5 => .progC0MsbM5 bcd
  | .c0, .lowHigh, .m0 => .progC0LohiM0 bcd
  | .c0, .lowHigh, .m1 => .progC0LohiM1 bcd
  | .c0, .lowHigh, .m2 => .progC0LohiM2 bcd
  | .c0, .lowHigh, .m3 => .progC0LohiM3 bcd
  | .c0, .lowHigh, .m4 => .progC0LohiM4 bcd
  | .c0, .lowHigh, .m5 => .progC0LohiM5 bcd
  | .c1, .lowOnly, .m0 => .progC1LsbM0 bcd
  | .c1, .lowOnly, .m1 => .progC1LsbM1 bcd
  | .c1, .lowOnly, .m2 => .progC1LsbM2 bcd
  | .c1, .lowOnly, .m3 => .progC1LsbM3 bcd
  | .c1, .lowOnly, .m4 => .progC1LsbM4 bcd
  | .c1, .lowOnly, .m5 => .progC1LsbM5 bcd
  | .c1, .highOnly, .m0 => .progC1MsbM0 bcd
  | .c1, .highOnly, .m1 => .progC1MsbM1 bcd
  | .c1, .highOnly, .m2 => .progC1MsbM2 bcd
  | .c1, .highOnly, .m3 => .progC1MsbM3 bcd
  | .c1, .highOnly, .m4 => .progC1MsbM4 bcd
  | .c1, .highOnly, .m5 => .progC1MsbM5 bcd
  | .c1, .lowHigh, .m0 => .progC1LohiM0 bcd
  | .c1, .lowHigh, .m1 => .progC1LohiM1 bcd
  | .c1, .lowHigh, .m2 => .progC1LohiM2 bcd
  | .c1, .lowHigh, .m3 => .progC1LohiM3 bcd
  | .c1, .lowHigh, .m4 => .progC1LohiM4 bcd
  | .c1, .lowHigh, .m5 => .progC1LohiM5 bcd
  | .c2, .lowOnly, .m0 => .progC2LsbM0 bcd
  | .c2, .lowOnly, .m1 => .progC2LsbM1 bcd
  | .c2, .lowOnly, .m2 => .progC2LsbM2 bcd
  | .c2, .lowOnly, .m3 => .progC2LsbM3 bcd
  | .c2, .lowOnly, .m4 => .progC2LsbM4 bcd
  | .c2, .lowOnly, .m5 => .progC2LsbM5 bcd
  | .c2, .highOnly, .m0 => .progC2MsbM0 bcd
  | .c2, .highOnly, .m1 => .progC2MsbM1 bcd
  | .c2, .highOnly, .m2 => .progC2MsbM2 bcd
  | .c2, .highOnly, .m3 => .progC2MsbM3 bcd
  | .c2, .highOnly, .m4 => .progC2MsbM4 bcd
  | .c2, .highOnly, .m5 => .progC2MsbM5 bcd
  | .c2, .lowHigh, .m0 => .progC2LohiM0 bcd
  | .c2, .lowHigh, .m1 => .progC2LohiM1 bcd
  | .c2, .lowHigh, .m2 => .progC2LohiM2 bcd
  | .c2, .lowHigh, .m3 => .progC2LohiM3 bcd
  | .c2, .lowHigh, .m4 => .progC2LohiM4 bcd
  | .c2, .lowHigh, .m5 => .progC2LohiM5 bcd

/-- The reserved control bytes (R90): the 9 rows `PROG.C<sc>.<rw>.RSVD` and `RDBK.RSVD`. -/
def reservedInstrs (low : BitVec 2) (rest : BitVec 5) : List Instr :=
  [.progC0LsbRsvd low, .progC0MsbRsvd low, .progC0LohiRsvd low, .progC1LsbRsvd low,
    .progC1MsbRsvd low, .progC1LohiRsvd low, .progC2LsbRsvd low, .progC2MsbRsvd low,
    .progC2LohiRsvd low, .rdbkRsvd rest]

/-- The reserved words of R90: a write to the control port that is a mode program with `M` 6 or 7, or a read-back
command with bit 0 set. -/
def reservedWord (w : TW) : Bool :=
  w.extractLsb' 8 3 == 7#3 &&
    (if w.extractLsb' 6 2 = 3#2 then w.getLsbD 0 else w.extractLsb' 4 2 != 0#2 && decide (6 ≤ (w.extractLsb' 1 3).toNat))

/-! ## Fields by their codes -/

/-- Channel of an address or of `SC`, 0 to 2. -/
def channelOf (f : BitVec 2) : ChanId := if f = 0#2 then .c0 else if f = 1#2 then .c1 else .c2

/-- R85: 1 `LowOnly`, 2 `HighOnly`, 3 `LowHigh`. -/
def accessOf (f : BitVec 2) : AccessMode := if f = 1#2 then .lowOnly else if f = 2#2 then .highOnly else .lowHigh

/-- R84: the mode number in plain binary, 0 to 5. -/
def modeOf (f : BitVec 3) : Mode :=
  if f = 0#3 then .m0 else if f = 1#3 then .m1 else if f = 2#3 then .m2 else if f = 3#3 then .m3
  else if f = 4#3 then .m4 else .m5

/-- `ControlWrite(D)` on the bits of the control byte (R181). -/
def controlWrite (d : Byte) (s : State) : StepResult :=
  let sc := d.extractLsb' 6 2
  let rw := d.extractLsb' 4 2
  let m := d.extractLsb' 1 3
  if sc = 3#2 then
    if d.getLsbD 0 then reservedWrite s
    else execRdbk (d.getLsbD 5) (d.getLsbD 4) (d.getLsbD 3) (d.getLsbD 2) (d.getLsbD 1) s
  else if rw = 0#2 then busLatch (channelOf sc) s
  else if 6 ≤ m.toNat then reservedWrite s
  else busProgram (channelOf sc) (accessOf rw) (modeOf m) (d.getLsbD 0) s

/-- `IoAccess` of a well-formed transaction, on the bits of its word (R80, R180). -/
def frontEnd (w : TW) (s : State) : StepResult :=
  let a := w.extractLsb' 8 2
  let d := w.extractLsb' 0 8
  if w.getLsbD 10 then
    if a = 3#2 then controlWrite d s else busWrite (channelOf a) d s
  else if a = 3#2 then execRdCtl d s
  else busRead (channelOf a) s

/-- The channels an access reaches (R182), on the bits of its word. -/
def reaches (w : TW) (c : ChanId) : Bool :=
  let a := w.extractLsb' 8 2
  let sc := w.extractLsb' 6 2
  if a ≠ 3#2 then a.toNat == c.index
  else if w.getLsbD 10 = false then false
  else if sc ≠ 3#2 then sc.toNat == c.index
  else w.getLsbD (1 + c.index)

/-! ## What a rule says a step leaves -/

/-- The pin calls of channel `c` at the current tick, one per level, if a pin is wired (R191). -/
def calls (c : ChanId) (levels : List Bool) (s : State) : List PinCall :=
  if c.index < s.params.numIntPins then levels.map fun v => { tick := s.now, chan := c, level := v } else []

/-- The 16 raw bits a data-port write completes (R91), if it completes any. -/
def assembled (ch : Channel) (byte : Byte) : Option (BitVec 16) :=
  match ch.accessMode, ch.writeHalf with
  | .lowOnly, _ => some (0#8 ++ byte)
  | .highOnly, _ => some (byte ++ 0#8)
  | .lowHigh, .low => none
  | .lowHigh, .high => some (byte ++ ch.writeLow)

/-- The channel with a complete count written (R113): `countRegister`, and in `LowHigh` the half back to `Low`. -/
def withCount (ch : Channel) (raw : BitVec 16) : Channel :=
  { ch with
    countRegister := if ch.countFormat = .bcd then BitVec.ofNat 16 (bcdDecode raw) else raw
    writeHalf := if ch.accessMode = .lowHigh then .low else ch.writeHalf }

/-- The channel after a load at tick `now` (R104), `clk` being its input-clock period. -/
def loaded (now clk : Nat) (ch : Channel) : Channel :=
  { ch with
    currentCount := eff ch
    nullCount := false
    phase := .counting
    outputLevel :=
      if ch.mode = .m0 ∨ ch.mode = .m1 then false else if ch.mode = .m3 then true else ch.outputLevel
    armedUntilTick :=
      if (ch.mode = .m0 ∨ ch.mode = .m2 ∨ ch.mode = .m3) ∧ ch.gate = false then none
      else some (now + (if ch.mode = .m3 then (eff ch + 1) / 2 else eff ch) * clk) }

/-- The levels a load drives (R104). -/
def loadLevels (m : Mode) : List Bool :=
  if m = .m0 ∨ m = .m1 then [false] else if m = .m3 then [true] else []

/-- One channel after a read-back command that selects it with the given enable bits (R142): what is not latched yet
is latched, the status as of now and the count as of now. -/
def readBackOf (nc ns k : Bool) (now clk : Nat) (ch : Channel) : Channel :=
  let takesStatus := k && !ns && !ch.statusLatched && decide (ch.phase ≠ .unprogrammed)
  let takesCount := k && !nc && !ch.latched && decide (ch.phase ≠ .unprogrammed)
  { ch with
    latchedStatus := if takesStatus then status ch else ch.latchedStatus
    statusLatched := ch.statusLatched || takesStatus
    latchedValue := if takesCount then enc ch.countFormat (live now clk ch) else ch.latchedValue
    latched := ch.latched || takesCount }

/-- A channel right after `Reset()`, by the table of R43: the five fields it gives; every other field as drawn. -/
def resetChannel (gateReset : Bool) (drawn : Channel) : Channel where
  phase          := .unprogrammed
  armedUntilTick := none
  gate           := gateReset
  latched        := false
  statusLatched  := false
  mode           := drawn.mode
  countFormat    := drawn.countFormat
  accessMode     := drawn.accessMode
  writeHalf      := drawn.writeHalf
  writeLow       := drawn.writeLow
  readHalf       := drawn.readHalf
  countRegister  := drawn.countRegister
  currentCount   := drawn.currentCount
  nullCount      := drawn.nullCount
  outputLevel    := drawn.outputLevel
  latchedValue   := drawn.latchedValue
  latchedStatus  := drawn.latchedStatus

/-- The next step is the expiry of channel `c` at tick `a`, on the way to tick `t` (R150, R151). -/
def Expires (a : Nat) (c : ChanId) (t : Nat) (rest : List Input) (s : State) : Prop :=
  s.Running ∧ s.pending = .advance t :: rest ∧ s.now ≤ t ∧ nextDue t s = some (a, c) ∧ s.now ≤ a

/-- The next step is the gate driver's call, no expiry being due (R170). -/
def GateCall (c : ChanId) (level : Bool) (rest : List Input) (s : State) : Prop :=
  s.Running ∧ s.pending = .gate c level :: rest ∧ nextDue s.now s = none

/-! ## The checkpoint list, as the table of R201 has it -/

/-- The names of the 18 entries of a channel, in order. -/
def fieldNames : List String :=
  ["mode", "countFormat", "accessMode", "countRegister", "currentCount", "gate", "outputLevel", "latched",
    "latchedValue", "armed", "armedUntilTick", "phase", "writeHalf", "writeLow", "readHalf", "nullCount",
    "statusLatched", "latchedStatus"]

/-- The names of the 54 entries, channel 0 first. -/
def officialNames : List String := ["ch0.", "ch1.", "ch2."].flatMap fun p => fieldNames.map fun n => p ++ n

/-- The least and the greatest legal value of each of the 18 entries; any natural number for `armedUntilTick`. -/
def fieldRanges : List (Nat × Option Nat) :=
  [(0, some 5), (0, some 1), (1, some 3), (0, some 65535), (0, some 65536), (0, some 1), (0, some 1), (0, some 1),
    (0, some 65535), (0, some 1), (0, none), (0, some 3), (0, some 1), (0, some 255), (0, some 1), (0, some 1),
    (0, some 1), (0, some 255)]

/-- A value within its legal range. -/
abbrev inRange (r : Nat × Option Nat) (v : Nat) : Prop := r.1 ≤ v ∧ ∀ hi ∈ r.2, v ≤ hi

/-- Every value of a list within the legal range of its position. -/
abbrev AllInRange (entries : List Entry) : Prop :=
  ∀ p ∈ (fieldRanges ++ fieldRanges ++ fieldRanges).zip entries, inRange p.1 p.2.value

/-- 0 or 1. -/
def bit (b : Bool) : Nat := if b then 1 else 0

/-- The 18 values saved of a channel. -/
def savedValues (ch : Channel) : List Nat :=
  [match ch.mode with | .m0 => 0 | .m1 => 1 | .m2 => 2 | .m3 => 3 | .m4 => 4 | .m5 => 5,
    match ch.countFormat with | .binary => 0 | .bcd => 1,
    match ch.accessMode with | .lowOnly => 1 | .highOnly => 2 | .lowHigh => 3,
    ch.countRegister.toNat, ch.currentCount, bit ch.gate, bit ch.outputLevel, bit ch.latched, ch.latchedValue.toNat,
    match ch.armedUntilTick with | none => 0 | some _ => 1,
    match ch.armedUntilTick with | none => 0 | some a => a,
    match ch.phase with | .unprogrammed => 0 | .awaitingReload => 1 | .counting => 2 | .halted => 3,
    match ch.writeHalf with | .low => 0 | .high => 1,
    ch.writeLow.toNat,
    match ch.readHalf with | .low => 0 | .high => 1,
    bit ch.nullCount, bit ch.statusLatched, ch.latchedStatus.toNat]

/-- The 18 values a list gives channel `c`, entry 11 being ignored where entry 10 is 0 (R202). -/
def givenValues (c : ChanId) (entries : List Entry) : List Nat :=
  let values := ((entries.map Entry.value).drop (18 * c.index)).take 18
  if values[9]? = some 0 then values.set 10 0 else values

end Sys2Proof.Spec

open Sys2Proof Sys2Proof.Machine

/-! ## Encoding -/

/-- R80 to R90. The decoder and the encoder are inverse to each other, on every instruction with every operand and on
every one of the 2048 words. -/
def Obligations.DecodeEncodeAgree : Prop :=
  (∀ i : Instr, decode (encode i) = .ok i) ∧ ∀ w : TW, encodeWord (decodeWord w) = w

/-- R80 to R90, vectors V12 and V13: words of every family, with the instruction each stands for. -/
def Obligations.DecodeOfSpecWords : Prop :=
  decodeTableWord 16 0x100 = some (.rdCnt1 0x00#8) ∧
    decodeTableWord 16 0x300 = some (.rdCtl 0x00#8) ∧
    decodeTableWord 16 0x464 = some (.wrCnt0 0x64#8) ∧
    decodeTableWord 16 0x70F = some (.latch0 0xF#4) ∧
    decodeTableWord 16 0x734 = some (.progC0LohiM2 false) ∧
    decodeTableWord 16 0x79B = some (.progC2LsbM5 true) ∧
    decodeTableWord 16 0x7BD = some (.progC2LohiRsvd 1#2) ∧
    decodeTableWord 16 0x7C2 = some (.rdbk false false false false true) ∧
    decodeTableWord 16 0x7E4 = some (.rdbk true false false true false) ∧
    decodeTableWord 16 0x7C3 = some (.rdbkRsvd 1#5)

/-- R81 to R88, R180 to R182. The instruction a word decodes to does what `IoAccess` and `ControlWrite` say on the bits
of that word: every row of the table is wired to the channel, access mode, mode and format its bits name. -/
def Obligations.ExecFollowsTheBitsOfTheWord : Prop :=
  ∀ (w : TW) (s : State), exec (decodeWord w) s = Spec.frontEnd w s

/-- R106 to R111. The word of a mode program, bit by bit: `1 11 SC RW M BCD`. -/
def Obligations.ProgramWordIsItsFields : Prop :=
  ∀ (c : ChanId) (am : AccessMode) (m : Mode) (bcd : Bool),
    encodeWord (Spec.programInstr c am m bcd) =
        7#3 ++ BitVec.ofNat 2 c.index ++ am.code ++ m.code ++ BitVec.ofBool bcd ∧
      decodeWord (7#3 ++ BitVec.ofNat 2 c.index ++ am.code ++ m.code ++ BitVec.ofBool bcd) =
        Spec.programInstr c am m bcd

/-! ## The step -/

/-- R69, R180. A transaction at the head of the calls, when no expiry is due, is decoded and its instruction is run,
the call being taken from the list; nothing is added around it. -/
def Obligations.StepRunsDecodedTransaction : Prop :=
  ∀ (s : State) (tr : Transaction) (rest : List Input) (i : Instr),
    s.Running → s.pending = .bus tr :: rest → nextDue s.now s = none → decode tr = .ok i →
      step s = exec i { s with pending := rest }

/-- R69. While an expiry is due at the current tick, the step takes it before a bus access, a gate change, a
`Serialize` or a `Startup`, and the call stays pending. -/
def Obligations.DueExpiryComesFirst : Prop :=
  ∀ (s : State) (a : Nat) (c : ChanId) (i : Input) (rest : List Input),
    s.Running → s.pending = i :: rest →
      ((∃ tr, i = .bus tr) ∨ (∃ c' level, i = .gate c' level) ∨ i = .serialize ∨ i = .startup) →
      nextDue s.now s = some (a, c) → s.now ≤ a →
        ∃ d, expiry a (s.params.clkPeriod c) (s.chan c) = .ok d ∧
          step s =
            .next
              { State.setChan c d.ch s with
                now := a
                pinLog := s.pinLog ++ Spec.calls c d.calls { s with now := a } }

/-- R150, R229. The event fired next on the way to tick `t` is the earliest due by `t`, and of those at one tick the
one of the least channel number. -/
def Obligations.NextDueIsEarliestThenLeastChannel : Prop :=
  ∀ (t : Nat) (s : State),
    (nextDue t s = none ↔ ∀ c, ∀ a ∈ (s.chan c).armedUntilTick, t < a) ∧
      ∀ a c, nextDue t s = some (a, c) ↔
        (s.chan c).armedUntilTick = some a ∧ a ≤ t ∧
          ∀ c', ∀ a' ∈ (s.chan c').armedUntilTick, a < a' ∨ (a = a' ∧ c.index ≤ c'.index)

/-- R150. With nothing due by `t`, `Advance(t)` sets `now` and changes nothing else. -/
def Obligations.AdvanceMovesTime : Prop :=
  ∀ (s : State) (t : Nat) (rest : List Input),
    s.Running → s.pending = .advance t :: rest → s.now ≤ t → nextDue t s = none →
      step s = .next { s with now := t, pending := rest }

/-- R150: "The loop ends". From every state that keeps the invariants, the steps of an `Advance(t)` end after at most
three expiries per tick, at tick `t`, with every due event fired. -/
def Obligations.AdvanceLoopEnds : Prop :=
  ∀ (s : State) (t : Nat) (rest : List Input),
    s.Inv → s.NoStaleEvent → s.Running → s.pending = .advance t :: rest → s.now ≤ t →
      ∃ (n : Nat) (u : State),
        n ≤ 3 * (t - s.now) + 4 ∧ Sys2Proof.core.run n s = .next u ∧ u.Running ∧ u.now = t ∧ u.pending = rest ∧
          ∀ c, ∀ a ∈ (u.chan c).armedUntilTick, t < a

/-- R10, R194. A step never moves time back, and moves it only for an `Advance`; the parameters stay; the pin log
only grows, by calls made at the tick of the step on wired pins. -/
def Obligations.TimeAndPinLogOnlyGrow : Prop :=
  ∀ s t : State, step s = .next t →
    s.now ≤ t.now ∧ t.params = s.params ∧
      (t.now ≠ s.now → ∃ u rest, s.pending = .advance u :: rest ∧ t.now ≤ u) ∧
      ∃ more, t.pinLog = s.pinLog ++ more ∧
        ∀ p ∈ more, p.tick = t.now ∧ p.chan.index < s.params.numIntPins

/-! ## Errors -/

/-- R64, R221. A transaction of another size or outside the window records `BadAccess` with its address and size; no
channel field changes, no pin call is made, nothing is returned. -/
def Obligations.BadAccessIsFatal : Prop :=
  ∀ (s : State) (tr : Transaction) (rest : List Input),
    s.Running → s.pending = .bus tr :: rest → nextDue s.now s = none → (tr.size ≠ 1 ∨ tr.address ∉ [0, 1, 2, 3]) →
      step s = .next { s with pending := rest, fatalCode := some (.badAccess tr.address tr.size) }

/-- R225. After a fatal outcome no step of any agent has a meaning. -/
def Obligations.FatalIsFinal : Prop :=
  ∀ (s : State) (code : FatalCode), s.fatalCode = some code →
    step s = .fault (.terminated code) ∧ ∀ i, exec i s = .fault (.terminated code)

/-- R225, R227. A step that ends fatal records the code and, but for taking its call, changes nothing. -/
def Obligations.FatalStepChangesNothingElse : Prop :=
  ∀ (s t : State) (code : FatalCode), step s = .next t → t.fatalCode = some code →
    t = { s with pending := s.pending.tail, fatalCode := some code }

/-- R103, R224. No step of any state that has not ended records `DoubleArm`. -/
def Obligations.DoubleArmIsUnreachable : Prop :=
  ∀ (s t : State) (c : ChanId), step s = .next t → t.fatalCode ≠ some (.doubleArm c)

/-! ## Invariants -/

/-- R42. Every step from a state that keeps the invariants (I1) to (I3) and (I5) to (I9) leads to one that keeps them.
It rests on the bounds of log entry 9, an inference of the model's. -/
def Obligations.InvariantsKeptByEveryStep : Prop := ∀ s t : State, s.Inv → step s = .next t → t.Inv

/-- R42, R43. The invariants hold right after `Reset()`, for all parameters with positive periods and every draw of the
unspecified fields; and at `State.reset`. -/
def Obligations.InvariantsHoldAtReset : Prop :=
  (∀ (p : Params) (d0 d1 d2 : Channel), p.Valid → d0.CountBound → d1.CountBound → d2.CountBound →
      (State.resetWith p d0 d1 d2).Inv ∧ (State.resetWith p d0 d1 d2).NoStaleEvent) ∧
    State.reset.Inv ∧ State.reset.NoStaleEvent

/-- R42 (I4), the part every step but a restore keeps: no event is armed before `now`. -/
def Obligations.NoEventInThePast : Prop :=
  ∀ s t : State, s.NoStaleEvent → (∀ entries rest, s.pending ≠ .restore entries :: rest) → step s = .next t →
    t.NoStaleEvent

/-- R42 (I4): a bus access, a gate change, a `Serialize` or a `Startup` that is not fatal is taken only when `Armed(c)`
implies `armedUntilTick > now`. -/
def Obligations.ArmedIsAfterNowAtEveryAccess : Prop :=
  ∀ (s t : State) (i : Input) (rest : List Input),
    s.pending = i :: rest → ((∃ tr, i = .bus tr) ∨ (∃ c level, i = .gate c level) ∨ i = .serialize ∨
        (i = .startup ∧ t.fatalCode = none)) →
      step s = .next t → t.pending = rest → ∀ c, ∀ a ∈ (s.chan c).armedUntilTick, s.now < a

/-! ## Counts -/

/-- R100. The effective count, clause by clause, and its range (R117 (a)). -/
def Obligations.EffectiveCount : Prop :=
  ∀ ch : Channel,
    (ch.countRegister ≠ 0#16 → eff ch = ch.countRegister.toNat) ∧
      (ch.countRegister = 0#16 → ch.countFormat = .bcd → eff ch = 10000) ∧
      (ch.countRegister = 0#16 → ch.countFormat = .binary → eff ch = 65536) ∧
      1 ≤ eff ch ∧ eff ch ≤ 65536 ∧
      (ch.countFormat = .bcd → ch.countRegister.toNat ≤ 9999 → eff ch ≤ 10000)

/-- R101. Each nibble is a decimal digit clamped to 9; the result is 0 to 9999. -/
def Obligations.BcdDecodeClampsDigits : Prop :=
  ∀ raw : BitVec 16,
    bcdDecode raw =
        1000 * min (raw.toNat / 4096) 9 + 100 * min (raw.toNat / 256 % 16) 9 + 10 * min (raw.toNat / 16 % 16) 9 +
          min (raw.toNat % 16) 9 ∧
      bcdDecode raw ≤ 9999

/-- R102. The binary encoding is the count modulo 65536; the BCD encoding has no digit above 9 and reads back as the
count modulo 10000. -/
def Obligations.EncodedCount : Prop :=
  ∀ v : Nat,
    (enc .binary v).toNat = v % 65536 ∧
      (∀ k < 4, ((enc .bcd v).extractLsb' (4 * k) 4).toNat = v % 10000 / 10 ^ k % 10) ∧
      bcdDecode (enc .bcd v) = v % 10000

/-- R130. A channel that is not armed shows its stored count. `k` whole periods after a load of `N` the live count is `N - k`, and it keeps that value until the next
period ends; in mode 3 it counts the full period, first in the high half, then in the low half. -/
def Obligations.LiveCountsDownByPeriods : Prop :=
  ∀ (ch : Channel) (start clk k j : Nat), j < clk →
    (ch.armedUntilTick = none → live (start + k * clk + j) clk ch = ch.currentCount) ∧
      (∀ n, (ch.mode ≠ .m3 ∨ ch.outputLevel = false) → k < n →
          ch.armedUntilTick = some (start + n * clk) → live (start + k * clk + j) clk ch = n - k) ∧
      (ch.mode = .m3 → ch.outputLevel = true → k < (eff ch + 1) / 2 →
        ch.armedUntilTick = some (start + (eff ch + 1) / 2 * clk) → live (start + k * clk + j) clk ch = eff ch - k)

/-- R89, R131. The status byte, field by field. -/
def Obligations.StatusByteLayout : Prop :=
  ∀ ch : Channel,
    (status ch).getLsbD 7 = ch.outputLevel ∧ (status ch).getLsbD 6 = ch.nullCount ∧
      (status ch).extractLsb' 4 2 =
        (match ch.accessMode with | .lowOnly => 0b01#2 | .highOnly => 0b10#2 | .lowHigh => 0b11#2) ∧
      (status ch).extractLsb' 1 3 =
        (match ch.mode with
        | .m0 => 0b000#3 | .m1 => 0b001#3 | .m2 => 0b010#3 | .m3 => 0b011#3 | .m4 => 0b100#3 | .m5 => 0b101#3) ∧
      (status ch).getLsbD 0 = decide (ch.countFormat = .bcd)

/-! ## Reads -/

/-- R132 to R135. A data-port read: an `Unprogrammed` channel gives any value and changes no field; else a latched
status comes first; else the byte of the latched or the live count, by access mode and half. The state after is the
state before but for what the rule names. -/
def Obligations.ReadDataPort : Prop :=
  ∀ (c : ChanId) (d : Byte) (s : State), s.Running →
    let ch := s.chan c
    let v := if ch.latched then ch.latchedValue else enc ch.countFormat (live s.now (s.params.clkPeriod c) ch)
    let high := ch.accessMode = .highOnly ∨ (ch.accessMode = .lowHigh ∧ ch.readHalf = .high)
    (ch.phase = .unprogrammed →
      ∃ (any : Byte) (draws : Nat),
        exec (Spec.readInstr c d) s =
          .next { s with replies := s.replies ++ [.read any s.params.accessLatency], draws := draws }) ∧
      (ch.phase ≠ .unprogrammed → ch.statusLatched = true →
        exec (Spec.readInstr c d) s =
          .next
            { s.setChan c { ch with statusLatched := false } with
              replies := s.replies ++ [.read ch.latchedStatus s.params.accessLatency] }) ∧
      (ch.phase ≠ .unprogrammed → ch.statusLatched = false →
        exec (Spec.readInstr c d) s =
          .next
            { s.setChan c
                { ch with
                  readHalf :=
                    if ch.accessMode = .lowHigh then (if ch.readHalf = .low then .high else .low) else ch.readHalf
                  latched := if ch.accessMode = .lowHigh ∧ ch.readHalf = .low then ch.latched else false } with
              replies :=
                s.replies ++
                  [.read (if high then v.extractLsb' 8 8 else v.extractLsb' 0 8) s.params.accessLatency] })

/-- R136. A read of the control port (`TW = 0 11 xxxxxxxx`) returns any value and the latency; no field of any channel
changes. -/
def Obligations.ReadControlPort : Prop :=
  ∀ (d : Byte), encodeWord (.rdCtl d) = 0b011#3 ++ d ∧
    ∀ s : State, s.Running →
      ∃ (any : Byte) (draws : Nat),
        exec (.rdCtl d) s =
          .next { s with replies := s.replies ++ [.read any s.params.accessLatency], draws := draws }

/-- R66, R132. A read never changes counting state: of every channel it writes at most `readHalf`, `latched` and
`statusLatched`, and it makes no pin call. -/
def Obligations.ReadsAreNonDisruptive : Prop :=
  ∀ (i : Instr) (s t : State), (encodeWord i).getLsbD 10 = false → exec i s = .next t →
    t.pinLog = s.pinLog ∧ t.now = s.now ∧ t.pending = s.pending ∧
      ∀ c, ∃ h l sl, t.chan c = { s.chan c with readHalf := h, latched := l, statusLatched := sl }

/-! ## Latches -/

/-- R137 to R140. A counter-latch command takes a snapshot of the live count unless one is held already; it is ignored
by an `Unprogrammed` channel; it writes nothing else. -/
def Obligations.LatchCountCommand : Prop :=
  ∀ (c : ChanId) (ignored : BitVec 4) (s : State), s.Running →
    let ch := s.chan c
    (ch.phase = .unprogrammed ∨ ch.latched = true →
      exec (Spec.latchInstr c ignored) s =
        .next { s with replies := s.replies ++ [.wrote s.params.accessLatency] }) ∧
      (ch.phase ≠ .unprogrammed → ch.latched = false →
        exec (Spec.latchInstr c ignored) s =
          .next
            { s.setChan c
                { ch with
                  latchedValue := enc ch.countFormat (live s.now (s.params.clkPeriod c) ch)
                  latched := true } with
              replies := s.replies ++ [.wrote s.params.accessLatency] })

/-- R137: "Idempotence: issuing `latch()` twice before any `readData()` yields the same value as issuing it once",
whatever passed in between that left the channel's latch and phase alone. -/
def Obligations.SecondLatchIsANoOp : Prop :=
  ∀ (c : ChanId) (x y : BitVec 4) (s t u v : State),
    exec (Spec.latchInstr c x) s = .next t → (u.chan c).latched = (t.chan c).latched →
      (u.chan c).phase = (t.chan c).phase → exec (Spec.latchInstr c y) u = .next v → v.chan c = u.chan c

/-- R142. A read-back command (`TW = 1 11 11 NC NS K2 K1 K0 0`) latches, of every selected channel, the status (`NS = 0`) and the count (`NC = 0`) that
are not latched yet, all at the same tick; nothing else changes. -/
def Obligations.ReadBackCommand : Prop :=
  ∀ (nc ns k2 k1 k0 : Bool),
    encodeWord (.rdbk nc ns k2 k1 k0) =
        0b11111#5 ++ BitVec.ofBool nc ++ BitVec.ofBool ns ++ BitVec.ofBool k2 ++ BitVec.ofBool k1 ++ BitVec.ofBool k0 ++
          0#1 ∧
      ∀ s : State, s.Running →
        exec (.rdbk nc ns k2 k1 k0) s =
          .next
            { s with
              ch0 := Spec.readBackOf nc ns k0 s.now s.params.clkPeriod0 s.ch0
              ch1 := Spec.readBackOf nc ns k1 s.now s.params.clkPeriod1 s.ch1
              ch2 := Spec.readBackOf nc ns k2 s.now s.params.clkPeriod2 s.ch2
              replies := s.replies ++ [.wrote s.params.accessLatency] }

/-- R90. A reserved control byte is a complete no-op that returns the latency; the reserved words are exactly those of
R90 (a) and (b); a read-back command that selects no channel, or has `NC = NS = 1`, latches nothing; and no word of a
transaction traps. -/
def Obligations.ReservedBytesDoNothing : Prop :=
  (∀ (low : BitVec 2) (rest : BitVec 5) (s : State), s.Running →
      ∀ i ∈ Spec.reservedInstrs low rest,
        exec i s = .next { s with replies := s.replies ++ [.wrote s.params.accessLatency] }) ∧
    (∀ i : Instr, Spec.reservedWord (encodeWord i) = true ↔ ∃ low rest, i ∈ Spec.reservedInstrs low rest) ∧
    (∀ (nc ns k2 k1 k0 : Bool) (s : State), s.Running →
      ((k2 = false ∧ k1 = false ∧ k0 = false) ∨ (nc = true ∧ ns = true)) →
        exec (.rdbk nc ns k2 k1 k0) s = .next { s with replies := s.replies ++ [.wrote s.params.accessLatency] }) ∧
    ∀ (i : Instr) (s t : State), exec i s = .next t → t.fatalCode = none

/-! ## Mode programs -/

/-- R105. A mode program, in every phase: all it writes, `currentCount` taking any value in 0 to 65536, its one pin
call, the latency; all else stays. -/
def Obligations.ProgramChannel : Prop :=
  ∀ (c : ChanId) (am : AccessMode) (m : Mode) (bcd : Bool) (s : State), s.Running →
    ∃ any draws : Nat, any ≤ 65536 ∧
      exec (Spec.programInstr c am m bcd) s =
        .next
          { s.setChan c
              { s.chan c with
                armedUntilTick := none
                latched := false
                statusLatched := false
                accessMode := am
                writeHalf := .low
                readHalf := .low
                mode := m
                countFormat := if bcd then .bcd else .binary
                nullCount := true
                currentCount := any
                phase := .awaitingReload
                outputLevel := if m = .m0 then false else true } with
            pinLog := s.pinLog ++ Spec.calls c [if m = .m0 then false else true] s
            replies := s.replies ++ [.wrote s.params.accessLatency]
            draws := draws }

/-- R105: "a mode program is the only way out of `Unprogrammed`", over all instructions. -/
def Obligations.OnlyAModeProgramLeavesUnprogrammed : Prop :=
  ∀ (i : Instr) (s t : State) (c : ChanId), exec i s = .next t →
    (s.chan c).phase = .unprogrammed → (t.chan c).phase ≠ .unprogrammed →
      ∃ am m bcd, i = Spec.programInstr c am m bcd

/-! ## Count writes -/

/-- R113. A write to an `Unprogrammed` channel changes no field; the first byte of a `LowHigh` pair is held and the
half goes to `High`: nothing else changes. -/
def Obligations.WriteWithoutACompleteCount : Prop :=
  ∀ (c : ChanId) (d : Byte) (s : State), s.Running →
    ((s.chan c).phase = .unprogrammed →
      exec (Spec.writeInstr c d) s = .next { s with replies := s.replies ++ [.wrote s.params.accessLatency] }) ∧
      ((s.chan c).phase ≠ .unprogrammed → (s.chan c).accessMode = .lowHigh → (s.chan c).writeHalf = .low →
        exec (Spec.writeInstr c d) s =
          .next
            { s.setChan c { s.chan c with writeLow := d, writeHalf := .high } with
              replies := s.replies ++ [.wrote s.params.accessLatency] })

/-- R104, R113 to R116. A complete count in modes 0, 2, 3 and 4 is loaded at once: the count register, the count, the
output, the pending event and the pin call. -/
def Obligations.WriteLoadsInModes0234 : Prop :=
  ∀ (c : ChanId) (d : Byte) (raw : BitVec 16) (s : State), s.Running →
    (s.chan c).phase ≠ .unprogrammed → Spec.assembled (s.chan c) d = some raw →
      (s.chan c).mode ≠ .m1 → (s.chan c).mode ≠ .m5 →
      ¬((s.chan c).mode = .m3 ∧ eff (Spec.withCount (s.chan c) raw) = 1) →
        exec (Spec.writeInstr c d) s =
          .next
            { s.setChan c (Spec.loaded s.now (s.params.clkPeriod c) (Spec.withCount (s.chan c) raw)) with
              pinLog := s.pinLog ++ Spec.calls c (Spec.loadLevels (s.chan c).mode) s
              replies := s.replies ++ [.wrote s.params.accessLatency] }

/-- R113. A complete count in modes 1 and 5 waits for the gate: it is stored, `nullCount` is set, a channel that
awaited its count halts, and a run that is armed goes on untouched. -/
def Obligations.WriteWaitsForTheGateInModes15 : Prop :=
  ∀ (c : ChanId) (d : Byte) (raw : BitVec 16) (s : State), s.Running →
    (s.chan c).phase ≠ .unprogrammed → Spec.assembled (s.chan c) d = some raw →
      (s.chan c).mode = .m1 ∨ (s.chan c).mode = .m5 →
        exec (Spec.writeInstr c d) s =
          .next
            { s.setChan c
                { Spec.withCount (s.chan c) raw with
                  nullCount := true
                  phase := if (s.chan c).phase = .awaitingReload then .halted else (s.chan c).phase } with
              replies := s.replies ++ [.wrote s.params.accessLatency] }

/-- R118. A complete count write that gives a mode 3 channel an effective count of 1 is refused as a whole. -/
def Obligations.SquareWaveCountOneIsRefused : Prop :=
  ∀ (c : ChanId) (d : Byte) (raw : BitVec 16) (s : State), s.Running →
    (s.chan c).phase ≠ .unprogrammed → Spec.assembled (s.chan c) d = some raw →
      (s.chan c).mode = .m3 → eff (Spec.withCount (s.chan c) raw) = 1 →
        exec (Spec.writeInstr c d) s = .refused .squareWaveCountOne

/-! ## Frames over all instructions -/

/-- R20, R182. An access changes no channel its bits do not reach. -/
def Obligations.AccessReachesOnlyItsChannels : Prop :=
  ∀ (i : Instr) (s t : State) (c : ChanId), exec i s = .next t → Spec.reaches (encodeWord i) c = false →
    t.chan c = s.chan c

/-- R20: "no rule of one channel reads or writes a field of another". What an instruction makes of a channel depends on
that channel, the tick, the parameters and the draws alone: two states that differ elsewhere agree on it after. That
two mode programs with equal draws leave the same `currentCount` is the model's choice: `any value` is drawn alike, by
a counter in State (log entry 6, DESIGN CHOICE). -/
def Obligations.ChannelsAreIndependent : Prop :=
  ∀ (i : Instr) (c : ChanId) (s s' t t' : State),
    s.chan c = s'.chan c → s.now = s'.now → s.params = s'.params → s.draws = s'.draws →
      exec i s = .next t → exec i s' = .next t' → t.chan c = t'.chan c

/-- R7, R10, R73, R184. What no instruction changes: the parameters, the tick, the calls pending, the fatal mark, and of
every channel the gate (R30); and each returns exactly one reply, with the fixed latency. -/
def Obligations.EveryAccessReturnsTheLatency : Prop :=
  ∀ (i : Instr) (s t : State), exec i s = .next t →
    t.params = s.params ∧ t.now = s.now ∧ t.pending = s.pending ∧ t.fatalCode = none ∧
      (∀ c, (t.chan c).gate = (s.chan c).gate) ∧
      ∃ r, t.replies = s.replies ++ [r] ∧
        if (encodeWord i).getLsbD 10 then r = .wrote s.params.accessLatency
        else ∃ b, r = .read b s.params.accessLatency

/-! ## Expiry -/

/-- R152, R153. An expiry in modes 0 and 1: the count is 0, the output goes high with one `assert`, the channel halts
and is not re-armed. -/
def Obligations.ExpiryEndsAOneShot : Prop :=
  ∀ (a t : Nat) (c : ChanId) (rest : List Input) (s : State), Spec.Expires a c t rest s →
    (s.chan c).mode = .m0 ∨ (s.chan c).mode = .m1 →
      step s =
        .next
          { s.setChan c
              { s.chan c with currentCount := 0, outputLevel := true, phase := .halted, armedUntilTick := none } with
            now := a
            pinLog := s.pinLog ++ Spec.calls c [true] { s with now := a } }

/-- R156, R157. An expiry in modes 4 and 5: the count is 0, one pulse `deassert` then `assert` at the same tick, the
channel halts with the output high and is not re-armed. -/
def Obligations.ExpiryStrobes : Prop :=
  ∀ (a t : Nat) (c : ChanId) (rest : List Input) (s : State), Spec.Expires a c t rest s →
    (s.chan c).mode = .m4 ∨ (s.chan c).mode = .m5 →
      step s =
        .next
          { s.setChan c
              { s.chan c with currentCount := 0, outputLevel := true, phase := .halted, armedUntilTick := none } with
            now := a
            pinLog := s.pinLog ++ Spec.calls c [false, true] { s with now := a } }

/-- R154. An expiry in mode 2: the pulse, the reload, and the next event `N` periods later. -/
def Obligations.ExpiryReloadsInMode2 : Prop :=
  ∀ (a t : Nat) (c : ChanId) (rest : List Input) (s : State), Spec.Expires a c t rest s →
    (s.chan c).mode = .m2 →
      step s =
        .next
          { s.setChan c
              { s.chan c with
                outputLevel := true
                currentCount := eff (s.chan c)
                armedUntilTick := some (a + eff (s.chan c) * s.params.clkPeriod c) } with
            now := a
            pinLog := s.pinLog ++ Spec.calls c [false, true] { s with now := a } }

/-- R155. An expiry in mode 3: the output toggles; after the high half the low half of `N div 2` periods follows, after
the low half the count is reloaded and the high half of `(N + 1) div 2` periods follows. -/
def Obligations.ExpiryTogglesInMode3 : Prop :=
  ∀ (a t : Nat) (c : ChanId) (rest : List Input) (s : State), Spec.Expires a c t rest s →
    (s.chan c).mode = .m3 →
      let n := eff (s.chan c)
      step s =
        .next
          { s.setChan c
              (if (s.chan c).outputLevel then
                { s.chan c with
                  outputLevel := false
                  currentCount := n / 2
                  armedUntilTick := some (a + n / 2 * s.params.clkPeriod c) }
              else
                { s.chan c with
                  outputLevel := true
                  currentCount := n
                  armedUntilTick := some (a + (n + 1) / 2 * s.params.clkPeriod c) }) with
            now := a
            pinLog := s.pinLog ++ Spec.calls c [!(s.chan c).outputLevel] { s with now := a } }

/-! ## Periodic modes over whole periods -/

/-- R154, R150, R195. A mode 2 channel that was loaded with `N` at this tick, the other channels being disarmed: `k`
periods of `N` counts later it has made exactly one pulse, `deassert` then `assert`, at the end of each, it holds the
full count again, and its next event is `N` counts off. -/
def Obligations.RateGeneratorPulsesOncePerPeriod : Prop :=
  ∀ (c : ChanId) (k : Nat) (rest : List Input) (s : State),
    let ch := s.chan c
    let period := eff ch * s.params.clkPeriod c
    s.Running → ch.mode = .m2 → ch.outputLevel = true → ch.currentCount = eff ch → 1 ≤ s.params.clkPeriod c →
      ch.armedUntilTick = some (s.now + period) → (∀ c', c' ≠ c → (s.chan c').armedUntilTick = none) →
      s.pending = .advance (s.now + k * period) :: rest →
        Sys2Proof.core.run (k + 1) s =
          .next
            { s.setChan c { ch with armedUntilTick := some (s.now + (k + 1) * period) } with
              now := s.now + k * period
              pending := rest
              pinLog :=
                s.pinLog ++
                  (List.range k).flatMap fun j =>
                    Spec.calls c [false, true] { s with now := s.now + (j + 1) * period } }

/-- R155, R150, R195. A mode 3 channel that was loaded with `N` at this tick, the other channels being disarmed: over
`k` full periods of `N` counts its output toggles exactly twice per period, low after `(N + 1) div 2` counts and high
after all `N`, and it then stands as it stood at the load. -/
def Obligations.SquareWaveTogglesTwicePerPeriod : Prop :=
  ∀ (c : ChanId) (k : Nat) (rest : List Input) (s : State),
    let ch := s.chan c
    let clk := s.params.clkPeriod c
    let high := (eff ch + 1) / 2 * clk
    let period := eff ch * clk
    s.Running → ch.mode = .m3 → ch.outputLevel = true → ch.currentCount = eff ch → 2 ≤ eff ch → 1 ≤ clk →
      ch.armedUntilTick = some (s.now + high) → (∀ c', c' ≠ c → (s.chan c').armedUntilTick = none) →
      s.pending = .advance (s.now + k * period) :: rest →
        Sys2Proof.core.run (2 * k + 1) s =
          .next
            { s.setChan c { ch with armedUntilTick := some (s.now + k * period + high) } with
              now := s.now + k * period
              pending := rest
              pinLog :=
                s.pinLog ++
                  (List.range k).flatMap fun j =>
                    Spec.calls c [false] { s with now := s.now + j * period + high } ++
                      Spec.calls c [true] { s with now := s.now + (j + 1) * period } }

/-! ## Gate -/

/-- R170. The level is only recorded before a count has been written, when it is the level the gate has, and at a
falling edge in modes 1, 4 and 5. -/
def Obligations.GateLevelIsRecorded : Prop :=
  ∀ (c : ChanId) (level : Bool) (rest : List Input) (s : State), Spec.GateCall c level rest s →
    ((s.chan c).phase = .unprogrammed ∨ (s.chan c).phase = .awaitingReload ∨ (s.chan c).gate = level ∨
        (level = false ∧ ((s.chan c).mode = .m1 ∨ (s.chan c).mode = .m4 ∨ (s.chan c).mode = .m5))) →
      step s = .next { s.setChan c { s.chan c with gate := level } with pending := rest }

/-- R171. A falling gate in modes 0, 2, 3 freezes an armed channel at its live count and cancels its event; it leaves
everything else, the output among it. -/
def Obligations.GateFallPauses : Prop :=
  ∀ (c : ChanId) (rest : List Input) (s : State), Spec.GateCall c false rest s →
    (s.chan c).phase = .counting ∨ (s.chan c).phase = .halted → (s.chan c).gate = true →
      (s.chan c).mode = .m0 ∨ (s.chan c).mode = .m2 ∨ (s.chan c).mode = .m3 →
      step s =
        .next
          { s.setChan c
              { s.chan c with
                gate := false
                currentCount :=
                  if (s.chan c).armedUntilTick.isSome then live s.now (s.params.clkPeriod c) (s.chan c)
                  else (s.chan c).currentCount
                armedUntilTick := none } with
            pending := rest }

/-- R172. A rising gate in modes 0, 2, 3 resumes a paused channel from its frozen count, and does nothing to a halted
one. -/
def Obligations.GateRiseResumes : Prop :=
  ∀ (c : ChanId) (rest : List Input) (s : State), Spec.GateCall c true rest s →
    (s.chan c).phase = .counting ∨ (s.chan c).phase = .halted → (s.chan c).gate = false →
      (s.chan c).mode = .m0 ∨ (s.chan c).mode = .m2 ∨ (s.chan c).mode = .m3 →
      let k :=
        if (s.chan c).mode = .m3 ∧ (s.chan c).outputLevel = true then
          (s.chan c).currentCount - eff (s.chan c) / 2
        else (s.chan c).currentCount
      step s =
        .next
          { s.setChan c
              { s.chan c with
                gate := true
                armedUntilTick :=
                  if (s.chan c).phase = .counting ∧ (s.chan c).armedUntilTick = none then
                    some (s.now + k * s.params.clkPeriod c)
                  else (s.chan c).armedUntilTick } with
            pending := rest }

/-- R173. A rising gate in modes 1, 4, 5, counting or halted, is a fresh load and arm. -/
def Obligations.GateRiseTriggers : Prop :=
  ∀ (c : ChanId) (rest : List Input) (s : State), Spec.GateCall c true rest s →
    (s.chan c).phase = .counting ∨ (s.chan c).phase = .halted → (s.chan c).gate = false →
      (s.chan c).mode = .m1 ∨ (s.chan c).mode = .m4 ∨ (s.chan c).mode = .m5 →
      step s =
        .next
          { s.setChan c (Spec.loaded s.now (s.params.clkPeriod c) { s.chan c with gate := true }) with
            pending := rest
            pinLog := s.pinLog ++ Spec.calls c (if (s.chan c).mode = .m1 then [false] else []) s }

/-- R174. What a gate change never does. -/
def Obligations.GateNeverTouchesTheRest : Prop :=
  ∀ (c : ChanId) (level : Bool) (rest : List Input) (s t : State), Spec.GateCall c level rest s → step s = .next t →
    (∀ c', c' ≠ c → t.chan c' = s.chan c') ∧
      (∃ g cc nc o a ph,
        t.chan c =
          { s.chan c with
            gate := g, currentCount := cc, nullCount := nc, outputLevel := o, armedUntilTick := a, phase := ph }) ∧
      ((t.chan c).nullCount ≠ (s.chan c).nullCount →
        level = true ∧ ((s.chan c).mode = .m1 ∨ (s.chan c).mode = .m4 ∨ (s.chan c).mode = .m5)) ∧
      (t.pinLog = s.pinLog ∨
        (level = true ∧ (s.chan c).mode = .m1 ∧ t.pinLog = s.pinLog ++ Spec.calls c [false] s)) ∧
      t.fatalCode = none ∧ t.replies = s.replies ∧ t.draws = s.draws ∧ t.now = s.now

/-! ## Checkpoint -/

/-- R200, R201. `Serialize` returns 54 entries, 18 per channel, under the names and with the values of R201 in order,
each within its legal range (given R28's bound on the count), and changes nothing. -/
def Obligations.SerializeReturnsTheList : Prop :=
  ∀ (s : State) (rest : List Input),
    s.Running → s.pending = .serialize :: rest → nextDue s.now s = none →
      ∃ entries : List Entry,
        step s = .next { s with pending := rest, replies := s.replies ++ [.saved entries] } ∧
          entries.length = 54 ∧ entries.map Entry.name = Spec.officialNames ∧
          entries.map Entry.value = Spec.savedValues s.ch0 ++ Spec.savedValues s.ch1 ++ Spec.savedValues s.ch2 ∧
          ((∀ c, (s.chan c).CountBound) → Spec.AllInRange entries)

/-- R203. Restoring a saved list gives every channel field back, whatever instance it is restored into. -/
def Obligations.RestoreOfSavedListRoundTrips : Prop :=
  ∀ (s u : State) (rest : List Input), (∀ c, (s.chan c).CountBound) →
    u.Running → u.pending = .restore (serialize s) :: rest →
      step u = .next { u with pending := rest, ch0 := s.ch0, ch1 := s.ch1, ch2 := s.ch2 }

/-- R203: "from there every later step gives the same results, pin calls and expiry ticks as it would from `s`". An
instance of the same parameters, its clock at the tick of the save, is restored from the list saved of `s`; whatever
calls come later, it then runs as `s` runs: the same states but for the two logs, to which both runs append the same
pin calls and the same replies. `any value` is drawn alike in both runs (log entry 6). -/
def Obligations.RestoredInstanceBehavesTheSame : Prop :=
  ∀ (s u t : State) (later : List Input) (k : Nat), (∀ c, (s.chan c).CountBound) →
    s.Running → u.Running → u.params = s.params → u.now = s.now → u.draws = s.draws →
      u.pending = .restore (serialize s) :: later →
      Sys2Proof.core.run k { s with pending := later } = .next t →
        ∃ (pins : List PinCall) (results : List Reply),
          t.pinLog = s.pinLog ++ pins ∧ t.replies = s.replies ++ results ∧
            Sys2Proof.core.run (k + 1) u =
              .next { t with pinLog := u.pinLog ++ pins, replies := u.replies ++ results }

/-- R202, R222. A list is accepted exactly when it has the 54 names in order with legal values: every field of every
channel is then set from it, with no pin call and `now` untouched; any other list ends in `CheckpointMismatch` with no
channel field changed. -/
def Obligations.RestoreChecksTheList : Prop :=
  ∀ (s : State) (entries : List Entry) (rest : List Input),
    s.Running → s.pending = .restore entries :: rest →
      (entries.map Entry.name = Spec.officialNames ∧ Spec.AllInRange entries →
        ∃ x0 x1 x2 : Channel,
          step s = .next { s with pending := rest, ch0 := x0, ch1 := x1, ch2 := x2 } ∧
            Spec.savedValues x0 = Spec.givenValues .c0 entries ∧
            Spec.savedValues x1 = Spec.givenValues .c1 entries ∧
            Spec.savedValues x2 = Spec.givenValues .c2 entries) ∧
        (¬(entries.map Entry.name = Spec.officialNames ∧ Spec.AllInRange entries) →
          ∃ position, 1 ≤ position ∧
            step s = .next { s with pending := rest, fatalCode := some (.checkpointMismatch position) })

/-- R42: the invariants hold "across restore of a list that `Serialize` made": such a list is sound to restore. -/
def Obligations.SavedListIsSound : Prop :=
  ∀ s : State, s.Inv → Input.Sound s (.restore (serialize s))

/-- R205, R69. `Startup` is fatal for the first channel armed before `now`; with nothing due it changes nothing; an
event due exactly at `now` is no inconsistency: its expiry is taken first (R69), the call staying pending. That an
event in the past ends the run even while another channel is due at `now` is the model's reading (log entry 10,
DEDUCED). -/
def Obligations.StartupChecksForThePast : Prop :=
  ∀ (s : State) (rest : List Input), s.Running → s.pending = .startup :: rest →
    ((∀ c, ∀ a ∈ (s.chan c).armedUntilTick, s.now < a) → step s = .next { s with pending := rest }) ∧
      (∀ c, (∀ c', ∀ a ∈ (s.chan c').armedUntilTick, s.now ≤ a) → (s.chan c).armedUntilTick = some s.now →
        (∀ c', c'.index < c.index → (s.chan c').armedUntilTick ≠ some s.now) →
          ∃ d, expiry s.now (s.params.clkPeriod c) (s.chan c) = .ok d ∧
            step s = .next { State.setChan c d.ch s with pinLog := s.pinLog ++ Spec.calls c d.calls s }) ∧
      ∀ c, (∃ a, (s.chan c).armedUntilTick = some a ∧ a < s.now) →
        (∀ c', c'.index < c.index → ∀ a ∈ (s.chan c').armedUntilTick, s.now ≤ a) →
          step s = .next { s with pending := rest, fatalCode := some (.checkpointInconsistent c) }

/-! ## Reset -/

/-- R43. Right after `Reset()`, for all parameters and every draw of the unspecified fields: each channel is its draw
with `Unprogrammed`, disarmed, unlatched, its gate at `GATE_RESET`; no fatal code; no pin call. -/
def Obligations.ResetState : Prop :=
  ∀ (p : Params) (d0 d1 d2 : Channel),
    let s := State.resetWith p d0 d1 d2
    s.ch0 = Spec.resetChannel p.gateReset0 d0 ∧ s.ch1 = Spec.resetChannel p.gateReset1 d1 ∧
      s.ch2 = Spec.resetChannel p.gateReset2 d2 ∧ s.fatalCode = none ∧ s.pinLog = []

/-- The model's reset state is such a state, its parameters the open ones of Config with the defaults of R7, its
unspecified fields one draw: the model's choices of log entries 2, 3 and 4. -/
def Obligations.ResetOfConfigParameters : Prop :=
  (∃ d0 d1 d2, State.reset = State.resetWith Params.ofConfig d0 d1 d2) ∧
    State.reset.params.Valid ∧ State.reset.params.numIntPins = 3 ∧ (∀ c, (State.reset.chan c).gate = true) ∧
    State.reset.now = 0 ∧ State.reset.pending = [] ∧ State.reset.replies = []
end

