-- ==== Sys2Proof/Laws/State.lean ====
section
/-! SUPPORT. One lemma per field per update of State and of a channel in the middle of a step, so that no proof unfolds
a record update. -/

namespace Sys2Proof.Machine

/-! ## setChan -/

@[simp] theorem chan_setChan_same (c : ChanId) (x : Channel) (s : State) : (s.setChan c x).chan c = x := by
  cases c <;> rfl

theorem chan_setChan_other {c c' : ChanId} (h : c' ≠ c) (x : Channel) (s : State) :
    (s.setChan c x).chan c' = s.chan c' := by
  cases c <;> cases c' <;> first | rfl | exact absurd rfl h

theorem chan_setChan (c c' : ChanId) (x : Channel) (s : State) :
    (s.setChan c x).chan c' = if c' = c then x else s.chan c' := by
  cases c <;> cases c' <;> rfl

@[simp] theorem setChan_params (c : ChanId) (x : Channel) (s : State) : (s.setChan c x).params = s.params := by
  cases c <;> rfl
@[simp] theorem setChan_fatalCode (c : ChanId) (x : Channel) (s : State) :
    (s.setChan c x).fatalCode = s.fatalCode := by
  cases c <;> rfl
@[simp] theorem setChan_now (c : ChanId) (x : Channel) (s : State) : (s.setChan c x).now = s.now := by
  cases c <;> rfl
@[simp] theorem setChan_pending (c : ChanId) (x : Channel) (s : State) : (s.setChan c x).pending = s.pending := by
  cases c <;> rfl
@[simp] theorem setChan_pinLog (c : ChanId) (x : Channel) (s : State) : (s.setChan c x).pinLog = s.pinLog := by
  cases c <;> rfl
@[simp] theorem setChan_replies (c : ChanId) (x : Channel) (s : State) : (s.setChan c x).replies = s.replies := by
  cases c <;> rfl
@[simp] theorem setChan_draws (c : ChanId) (x : Channel) (s : State) : (s.setChan c x).draws = s.draws := by
  cases c <;> rfl

/-! ## notify -/

@[simp] theorem notify_chan (c c' : ChanId) (calls : List Bool) (s : State) :
    (s.notify c calls).chan c' = s.chan c' := by
  cases c' <;> rfl
@[simp] theorem notify_params (c : ChanId) (calls : List Bool) (s : State) :
    (s.notify c calls).params = s.params := rfl
@[simp] theorem notify_fatalCode (c : ChanId) (calls : List Bool) (s : State) :
    (s.notify c calls).fatalCode = s.fatalCode := rfl
@[simp] theorem notify_now (c : ChanId) (calls : List Bool) (s : State) : (s.notify c calls).now = s.now := rfl
@[simp] theorem notify_pending (c : ChanId) (calls : List Bool) (s : State) :
    (s.notify c calls).pending = s.pending := rfl
@[simp] theorem notify_replies (c : ChanId) (calls : List Bool) (s : State) :
    (s.notify c calls).replies = s.replies := rfl
@[simp] theorem notify_draws (c : ChanId) (calls : List Bool) (s : State) : (s.notify c calls).draws = s.draws := rfl
@[simp] theorem notify_nil (c : ChanId) (s : State) : s.notify c [] = s := by
  simp [State.notify]

/-- What the bridge appends to the log: the calls in order, if a pin is wired (R191). -/
theorem notify_pinLog (c : ChanId) (calls : List Bool) (s : State) :
    (s.notify c calls).pinLog = s.pinLog ++
      if c.index < s.params.numIntPins then calls.map fun v => { tick := s.now, chan := c, level := v } else [] := rfl

/-! ## reply, drawn, withPending -/

@[simp] theorem reply_chan (c : ChanId) (r : Reply) (s : State) : (s.reply r).chan c = s.chan c := by
  cases c <;> rfl
@[simp] theorem reply_params (r : Reply) (s : State) : (s.reply r).params = s.params := rfl
@[simp] theorem reply_fatalCode (r : Reply) (s : State) : (s.reply r).fatalCode = s.fatalCode := rfl
@[simp] theorem reply_now (r : Reply) (s : State) : (s.reply r).now = s.now := rfl
@[simp] theorem reply_pending (r : Reply) (s : State) : (s.reply r).pending = s.pending := rfl
@[simp] theorem reply_pinLog (r : Reply) (s : State) : (s.reply r).pinLog = s.pinLog := rfl
@[simp] theorem reply_replies (r : Reply) (s : State) : (s.reply r).replies = s.replies ++ [r] := rfl
@[simp] theorem reply_draws (r : Reply) (s : State) : (s.reply r).draws = s.draws := rfl

@[simp] theorem drawn_chan (c : ChanId) (s : State) : s.drawn.chan c = s.chan c := by
  cases c <;> rfl
@[simp] theorem drawn_params (s : State) : s.drawn.params = s.params := rfl
@[simp] theorem drawn_fatalCode (s : State) : s.drawn.fatalCode = s.fatalCode := rfl
@[simp] theorem drawn_now (s : State) : s.drawn.now = s.now := rfl
@[simp] theorem drawn_pending (s : State) : s.drawn.pending = s.pending := rfl
@[simp] theorem drawn_pinLog (s : State) : s.drawn.pinLog = s.pinLog := rfl
@[simp] theorem drawn_replies (s : State) : s.drawn.replies = s.replies := rfl
@[simp] theorem drawn_draws (s : State) : s.drawn.draws = s.draws + 1 := rfl

@[simp] theorem withPending_chan (c : ChanId) (rest : List Input) (s : State) :
    (s.withPending rest).chan c = s.chan c := by
  cases c <;> rfl
@[simp] theorem withPending_params (rest : List Input) (s : State) : (s.withPending rest).params = s.params := rfl
@[simp] theorem withPending_fatalCode (rest : List Input) (s : State) :
    (s.withPending rest).fatalCode = s.fatalCode := rfl
@[simp] theorem withPending_now (rest : List Input) (s : State) : (s.withPending rest).now = s.now := rfl
@[simp] theorem withPending_pending (rest : List Input) (s : State) : (s.withPending rest).pending = rest := rfl
@[simp] theorem withPending_pinLog (rest : List Input) (s : State) : (s.withPending rest).pinLog = s.pinLog := rfl
@[simp] theorem withPending_replies (rest : List Input) (s : State) : (s.withPending rest).replies = s.replies := rfl
@[simp] theorem withPending_draws (rest : List Input) (s : State) : (s.withPending rest).draws = s.draws := rfl

/-! ## A channel in the middle of a step -/

@[simp] theorem setOut_outputLevel (v : Bool) (d : Drive) : (d.setOut v).ch.outputLevel = v := rfl
@[simp] theorem setOut_calls (v : Bool) (d : Drive) : (d.setOut v).calls = d.calls ++ [v] := rfl
@[simp] theorem setOut_ch (v : Bool) (d : Drive) : (d.setOut v).ch = { d.ch with outputLevel := v } := rfl
@[simp] theorem cancel_armedUntilTick (ch : Channel) : ch.cancel.armedUntilTick = none := rfl

/-- Two states with the same fields are the same; the channels by number. -/
theorem State.ext_chan {s t : State} (hp : s.params = t.params) (hc : ∀ c, s.chan c = t.chan c)
    (hf : s.fatalCode = t.fatalCode) (hn : s.now = t.now) (hpe : s.pending = t.pending) (hl : s.pinLog = t.pinLog)
    (hr : s.replies = t.replies) (hd : s.draws = t.draws) : s = t := by
  have h0 := hc .c0
  have h1 := hc .c1
  have h2 := hc .c2
  cases s
  cases t
  simp_all [State.chan]

end Sys2Proof.Machine
end

