-- ==== Sys2Proof/Laws/Ops.lean ====
section
/-! SUPPORT. For each shared operation, everything it can answer, said once. Later proofs cite these and unfold
nothing. -/

namespace Sys2Proof.Machine

/-! ## The device -/

theorem whileRunning_running {s : State} (h : s.fatalCode = none) (k : StepResult) : whileRunning s k = k := by
  simp [whileRunning, h]

theorem whileRunning_fatal {s : State} {code : FatalCode} (h : s.fatalCode = some code) (k : StepResult) :
    whileRunning s k = .fault (.terminated code) := by
  simp [whileRunning, h]

theorem whileRunning_next {s t : State} {k : StepResult} (h : whileRunning s k = .next t) :
    s.fatalCode = none ∧ k = .next t := by
  unfold whileRunning at h
  split at h
  · exact ⟨‹_›, h⟩
  · cases h

theorem commit_ok {c : ChanId} {r : Except Stop Drive} {d : Drive} (h : r = .ok d) (finish : State → State)
    (s : State) : commit c r finish s = .next (finish ((s.setChan c d.ch).notify c d.calls)) := by
  subst h; rfl

/-- A commit answers a next state in two ways: the operation had a result, or it armed twice. -/
theorem commit_next {c : ChanId} {r : Except Stop Drive} {finish : State → State} {s t : State}
    (h : commit c r finish s = .next t) :
    (∃ d, r = .ok d ∧ t = finish ((s.setChan c d.ch).notify c d.calls)) ∨
      (r = .error .doubleArm ∧ t = { s with fatalCode := some (.doubleArm c) }) := by
  unfold commit at h
  split at h
  · exact .inl ⟨_, rfl, by injection h with h; exact h.symm⟩
  · exact .inr ⟨rfl, by injection h with h; exact h.symm⟩
  · cases h

/-! ## One channel -/

theorem schedule_of_disarmed {d : Drive} (h : d.ch.armedUntilTick = none) (a : Nat) :
    d.schedule a = .ok { d with ch := { d.ch with armedUntilTick := some a } } := by
  simp [Drive.schedule, h]

/-- The output level after a load (R104). -/
def loadedLevel (ch : Channel) : Bool :=
  match ch.mode with
  | .m0 | .m1 => false
  | .m3 => true
  | .m2 | .m4 | .m5 => ch.outputLevel

/-- The levels a load drives (R104). -/
def loadedCalls (m : Mode) : List Bool :=
  match m with
  | .m0 | .m1 => [false]
  | .m3 => [true]
  | .m2 | .m4 | .m5 => []

/-- A load that is not refused, in one record (R104). -/
theorem loadAndArm_eq (now clk : Nat) (ch : Channel) (h : ¬(ch.mode = .m3 ∧ eff ch = 1)) :
    loadAndArm now clk ch =
      .ok
        { ch :=
            { ch with
              armedUntilTick :=
                if ch.mode.levelGated && !ch.gate then none
                else some (now + firstPeriods ch.mode (eff ch) * clk)
              currentCount := eff ch
              nullCount := false
              phase := .counting
              outputLevel := loadedLevel ch }
          calls := loadedCalls ch.mode } := by
  rw [loadAndArm, if_neg h]
  cases hm : ch.mode <;>
    cases hg : ch.gate <;>
    simp [loadLevel, loadedLevel, loadedCalls, Mode.levelGated, Drive.schedule, Drive.setOut, Channel.cancel, hm, hg]

theorem loadAndArm_refused {now clk : Nat} {ch : Channel} (h : ch.mode = .m3 ∧ eff ch = 1) :
    loadAndArm now clk ch = .error .squareWaveCountOne := by
  rw [loadAndArm, if_pos h]

theorem loadAndArm_ne_doubleArm (now clk : Nat) (ch : Channel) : loadAndArm now clk ch ≠ .error .doubleArm := by
  by_cases h : ch.mode = .m3 ∧ eff ch = 1
  · simp [loadAndArm_refused h]
  · simp [loadAndArm_eq now clk ch h]

theorem countWritten_ne_doubleArm (now clk : Nat) (raw : BitVec 16) (ch : Channel) :
    countWritten now clk raw ch ≠ .error .doubleArm := by
  unfold countWritten
  split
  all_goals first
    | exact loadAndArm_ne_doubleArm _ _ _
    | simp

theorem writeData_ne_doubleArm (now clk : Nat) (byte : Byte) (ch : Channel) :
    writeData now clk byte ch ≠ .error .doubleArm := by
  unfold writeData
  split
  · simp
  · split
    all_goals first
      | exact countWritten_ne_doubleArm _ _ _ _
      | simp

/-- An expiry in mode 2, in one record (R154). -/
theorem expiryMode2_eq (now clk n : Nat) (ch : Channel) :
    expiryMode2 now clk n ch.cancel =
      .ok
        { ch := { ch with outputLevel := true, currentCount := n, armedUntilTick := some (now + n * clk) }
          calls := [false, true] } := rfl

/-- An expiry in mode 3, in one record (R155). -/
theorem expiryMode3_eq (now clk n : Nat) (ch : Channel) :
    expiryMode3 now clk n ch.cancel =
      .ok
        { ch :=
            { ch with
              outputLevel := !ch.outputLevel
              currentCount := if ch.outputLevel then n / 2 else n
              armedUntilTick := some (now + (if ch.outputLevel then n / 2 else (n + 1) / 2) * clk) }
          calls := [!ch.outputLevel] } := by
  cases h : ch.outputLevel <;> simp [expiryMode3, Drive.setOut, Drive.schedule, Channel.cancel, h]

theorem endOneShot_eq (ch : Channel) :
    endOneShot ch.cancel =
      { ch := { ch with currentCount := 0, outputLevel := true, phase := .halted, armedUntilTick := none }
        calls := [true] } := rfl

theorem endStrobe_eq (ch : Channel) :
    endStrobe ch.cancel =
      { ch := { ch with currentCount := 0, outputLevel := true, phase := .halted, armedUntilTick := none }
        calls := [false, true] } := rfl

/-- An expiry always has a result (R103, R151: nothing is pending when it arms). -/
theorem expiry_ok (now clk : Nat) (ch : Channel) : ∃ d, expiry now clk ch = .ok d := by
  cases h : ch.mode <;> simp [expiry, h, expiryMode2_eq, expiryMode3_eq]

theorem gateRise_ne_doubleArm (now clk : Nat) (ch : Channel) : gateRise now clk ch ≠ .error .doubleArm := by
  unfold gateRise
  split
  · rename_i h
    simp only [Channel.paused, Channel.armed, Bool.and_eq_true, Bool.not_eq_true', Option.isSome_eq_false_iff,
      Option.isNone_iff_eq_none] at h
    simp [Drive.schedule, h.2]
  · simp

theorem setGate_ne_doubleArm (now clk : Nat) (level : Bool) (ch : Channel) :
    setGate now clk level ch ≠ .error .doubleArm := by
  simp only [setGate]
  split
  · simp
  · split
    · split
      · exact gateRise_ne_doubleArm _ _ _
      · simp
    · split
      · exact loadAndArm_ne_doubleArm _ _ _
      · simp

/-! ## Every instruction is one of seven kinds of access -/

/-- The shape of every meaning (spec/30_encoding.md R81, R83). -/
theorem exec_shape (i : Instr) (s : State) :
    (∃ c, exec i s = busRead c s) ∨
      exec i s = execRdCtl 0#8 s ∨
      (∃ c d, exec i s = busWrite c d s) ∨
      (∃ c, exec i s = busLatch c s) ∨
      (∃ c am m bcd, exec i s = busProgram c am m bcd s) ∨
      (∃ nc ns k2 k1 k0, exec i s = execRdbk nc ns k2 k1 k0 s) ∨
      exec i s = reservedWrite s := by
  cases i
  case rdCnt0 | rdCnt1 | rdCnt2 => exact .inl ⟨_, rfl⟩
  case rdCtl => exact .inr (.inl rfl)
  case wrCnt0 | wrCnt1 | wrCnt2 => exact .inr (.inr (.inl ⟨_, _, rfl⟩))
  case latch0 | latch1 | latch2 => exact .inr (.inr (.inr (.inl ⟨_, rfl⟩)))
  case rdbk => exact .inr (.inr (.inr (.inr (.inr (.inl ⟨_, _, _, _, _, rfl⟩)))))
  all_goals first
    | exact .inr (.inr (.inr (.inr (.inl ⟨_, _, _, _, rfl⟩))))
    | exact .inr (.inr (.inr (.inr (.inr (.inr rfl)))))

end Sys2Proof.Machine
end

