-- ==== Sys2Proof/Laws/Meanings.lean ====
section
/-! SUPPORT. What each shared meaning answers when it answers a next state, what an operation of one channel leaves
alone, and the arithmetic of counts; said once, so that a proof about an instruction unfolds nothing. -/

namespace Sys2Proof.Machine

/-! ## The meanings -/

theorem busRead_next {c : ChanId} {s t : State} (h : busRead c s = .next t) :
    let result := readData s.now (s.params.clkPeriod c) (Config.freeByte s.draws) (s.chan c)
    t = drawnByRead (s.chan c) ((s.setChan c result.1).replyRead result.2) := by
  obtain ⟨_, h⟩ := whileRunning_next h
  injection h with h
  exact h.symm

theorem execRdCtl_next {d : Byte} {s t : State} (h : execRdCtl d s = .next t) :
    t = (s.replyRead (Config.freeByte s.draws)).drawn := by
  obtain ⟨_, h⟩ := whileRunning_next h
  injection h with h
  exact h.symm

theorem busWrite_next {c : ChanId} {d : Byte} {s t : State} (h : busWrite c d s = .next t) :
    ∃ x, writeData s.now (s.params.clkPeriod c) d (s.chan c) = .ok x ∧
      t = ((s.setChan c x.ch).notify c x.calls).replyWrote := by
  obtain ⟨_, h⟩ := whileRunning_next h
  obtain ⟨x, hx, ht⟩ | ⟨hx, _⟩ := commit_next h
  · exact ⟨x, hx, ht⟩
  · exact absurd hx (writeData_ne_doubleArm _ _ _ _)

theorem busLatch_next {c : ChanId} {s t : State} (h : busLatch c s = .next t) :
    t = (s.setChan c (latchCount s.now (s.params.clkPeriod c) (s.chan c))).replyWrote := by
  obtain ⟨_, h⟩ := whileRunning_next h
  injection h with h
  exact h.symm

theorem busProgram_next {c : ChanId} {am : AccessMode} {m : Mode} {bcd : Bool} {s t : State}
    (h : busProgram c am m bcd s = .next t) :
    let d := program am m bcd (Config.freeCount s.draws).val (s.chan c)
    t = ((s.setChan c d.ch).notify c d.calls).replyWrote.drawn := by
  obtain ⟨_, h⟩ := whileRunning_next h
  obtain ⟨x, hx, ht⟩ | ⟨hx, _⟩ := commit_next h
  · injection hx with hx
    subst hx
    exact ht
  · cases hx

/-- The select bit of a read-back command for each channel (R88). -/
def selects (k2 k1 k0 : Bool) : ChanId → Bool
  | .c0 => k0
  | .c1 => k1
  | .c2 => k2

theorem execRdbk_next {nc ns k2 k1 k0 : Bool} {s t : State} (h : execRdbk nc ns k2 k1 k0 s = .next t) :
    t.params = s.params ∧ t.replies = s.replies ++ [.wrote s.params.accessLatency] ∧
      ∀ c, t.chan c = readBack nc ns (selects k2 k1 k0 c) s.now (s.params.clkPeriod c) (s.chan c) := by
  obtain ⟨_, h⟩ := whileRunning_next h
  injection h with h
  subst h
  refine ⟨by simp [State.replyWrote, readBackChannel], by simp [State.replyWrote, readBackChannel], ?_⟩
  intro c
  cases c <;> rfl

theorem reservedWrite_next {s t : State} (h : reservedWrite s = .next t) : t = s.replyWrote := by
  obtain ⟨_, h⟩ := whileRunning_next h
  injection h with h
  exact h.symm

theorem gateStep_next {c : ChanId} {level : Bool} {s t : State} (h : gateStep c level s = .next t) :
    ∃ d, setGate s.now (s.params.clkPeriod c) level (s.chan c) = .ok d ∧ t = (s.setChan c d.ch).notify c d.calls := by
  obtain ⟨d, hd, ht⟩ | ⟨hd, _⟩ := commit_next h
  · exact ⟨d, hd, ht⟩
  · exact absurd hd (setGate_ne_doubleArm _ _ _ _)

@[simp] theorem drawnByRead_chan (ch : Channel) (s : State) (c : ChanId) :
    (drawnByRead ch s).chan c = s.chan c := by
  unfold drawnByRead
  split <;> simp
@[simp] theorem drawnByRead_params (ch : Channel) (s : State) : (drawnByRead ch s).params = s.params := by
  unfold drawnByRead
  split <;> rfl
@[simp] theorem drawnByRead_now (ch : Channel) (s : State) : (drawnByRead ch s).now = s.now := by
  unfold drawnByRead
  split <;> rfl
@[simp] theorem drawnByRead_replies (ch : Channel) (s : State) : (drawnByRead ch s).replies = s.replies := by
  unfold drawnByRead
  split <;> rfl
@[simp] theorem drawnByRead_pinLog (ch : Channel) (s : State) : (drawnByRead ch s).pinLog = s.pinLog := by
  unfold drawnByRead
  split <;> rfl
@[simp] theorem drawnByRead_pending (ch : Channel) (s : State) : (drawnByRead ch s).pending = s.pending := by
  unfold drawnByRead
  split <;> rfl
@[simp] theorem drawnByRead_fatalCode (ch : Channel) (s : State) : (drawnByRead ch s).fatalCode = s.fatalCode := by
  unfold drawnByRead
  split <;> rfl

/-- Writing back what a channel holds changes nothing. -/
@[simp] theorem setChan_self (c : ChanId) (s : State) : s.setChan c (s.chan c) = s := by
  cases c <;> rfl

theorem setChan_setChan (c : ChanId) (x y : Channel) (s : State) : (s.setChan c y).setChan c x = s.setChan c x := by
  cases c <;> rfl

/-! ## What an operation of one channel may write -/

/-- A read writes the read half and the two latch flags (R132, R66). -/
theorem readData_frame (now clk : Nat) (free : Byte) (ch : Channel) :
    ∃ h l sl, (readData now clk free ch).1 = { ch with readHalf := h, latched := l, statusLatched := sl } := by
  unfold readData
  split
  · exact ⟨_, _, _, rfl⟩
  · split
    · exact ⟨_, _, _, rfl⟩
    · unfold countRead
      dsimp only
      split <;> exact ⟨_, _, _, rfl⟩

/-- A counter latch writes the count latch (R137). -/
theorem latchCount_frame (now clk : Nat) (ch : Channel) :
    ∃ l v, latchCount now clk ch = { ch with latched := l, latchedValue := v } := by
  unfold latchCount
  split
  · exact ⟨_, _, rfl⟩
  · split <;> exact ⟨_, _, rfl⟩

/-- A read-back writes the two latches (R141, R142). -/
theorem readBack_frame (nc ns k : Bool) (now clk : Nat) (ch : Channel) :
    ∃ l v sl sv,
      readBack nc ns k now clk ch =
        { ch with latched := l, latchedValue := v, statusLatched := sl, latchedStatus := sv } := by
  cases k <;> cases ns <;> cases nc <;>
    simp only [readBack, latchStatus, latchCount, Bool.false_eq_true, if_true, if_false] <;>
    (repeat' split) <;>
    exact ⟨_, _, _, _, rfl⟩

/-- Everything a gate change can leave (R170 to R173): the level alone, a paused channel, a resumed one, or a load. -/
theorem setGate_cases {now clk : Nat} {level : Bool} {ch : Channel} {d : Drive}
    (h : setGate now clk level ch = .ok d) :
    d = { ch := { ch with gate := level }, calls := [] } ∨
      (ch.mode.levelGated = true ∧ level = false ∧
        d = { ch := { ch with gate := false, currentCount := live now clk ch, armedUntilTick := none }, calls := [] }) ∨
      (ch.mode.levelGated = true ∧ level = true ∧ ch.paused = true ∧
        ∃ a, d = { ch := { ch with gate := true, armedUntilTick := some a }, calls := [] }) ∨
      (ch.mode.levelGated = false ∧ level = true ∧ loadAndArm now clk { ch with gate := true } = .ok d) := by
  simp only [setGate] at h
  split at h
  · injection h with h
    exact .inl h.symm
  · split at h
    · rename_i hl
      split at h
      · rename_i hlevel
        unfold gateRise at h
        split at h
        · rename_i hp
          unfold Drive.schedule at h
          split at h
          · injection h with h
            subst hlevel
            exact .inr (.inr (.inl ⟨hl, rfl, hp, _, h.symm⟩))
          · cases h
        · injection h with h
          exact .inl h.symm
      · rename_i hlevel
        injection h with h
        have hlevel : level = false := by simpa using hlevel
        subst hlevel
        unfold gateFall at h
        split at h
        · exact .inr (.inl ⟨hl, rfl, h.symm⟩)
        · exact .inl h.symm
    · rename_i hl
      have hl : ch.mode.levelGated = false := by simpa using hl
      split at h
      · rename_i hlevel
        subst hlevel
        exact .inr (.inr (.inr ⟨hl, rfl, h⟩))
      · injection h with h
        exact .inl h.symm

/-! ## Counts -/

theorem eff_pos (ch : Channel) : 1 ≤ eff ch := by
  unfold eff
  split
  · split <;> omega
  · rename_i h
    by_contra h0
    exact h (BitVec.eq_of_toNat_eq (by simp; omega))

theorem eff_le (ch : Channel) : eff ch ≤ 65536 := by
  have := ch.countRegister.isLt
  unfold eff
  split
  · split <;> omega
  · omega

/-- `k` whole periods and `j` ticks into a run of `m` periods, `m - k` periods are left. -/
theorem ceilDiv_periods {m k j clk : Nat} (hj : j < clk) (hk : k < m) :
    ceilDiv (m * clk - (k * clk + j)) clk = m - k := by
  unfold ceilDiv
  obtain ⟨n, rfl⟩ : ∃ n, m = k + 1 + n := ⟨m - (k + 1), by omega⟩
  have split : (k + 1 + n) * clk = k * clk + (n + 1) * clk := by ring
  have big : clk ≤ (n + 1) * clk := Nat.le_mul_of_pos_left _ (by omega)
  have sum : (k + 1 + n) * clk - (k * clk + j) + clk - 1 = (n + 1) * clk + (clk - 1 - j) := by omega
  rw [sum, Nat.add_comm, Nat.add_mul_div_right _ _ (by omega), Nat.div_eq_of_lt (by omega)]
  omega

theorem ceilDiv_pos {x clk : Nat} (hx : 1 ≤ x) (hc : 1 ≤ clk) : 1 ≤ ceilDiv x clk := by
  unfold ceilDiv
  rw [Nat.le_div_iff_mul_le (by omega)]
  omega

theorem ceilDiv_le {x clk n : Nat} (h : x ≤ n * clk) (hc : 1 ≤ clk) : ceilDiv x clk ≤ n := by
  unfold ceilDiv
  refine Nat.le_of_lt_succ ?_
  rw [Nat.div_lt_iff_lt_mul (by omega), Nat.succ_mul]
  omega

/-! ## The checkpoint list -/

/-- R202: a list has no bad entry exactly when it has the names in order and legal values. -/
theorem firstBadEntry_none_iff (order : List (String × Field)) (entries : List Entry) (position : Nat) :
    firstBadEntry position order entries = none ↔
      entries.map Entry.name = order.map Prod.fst ∧ ∀ p ∈ order.zip entries, p.1.2.legal p.2.value = true := by
  induction order generalizing entries position with
  | nil => cases entries <;> simp [firstBadEntry]
  | cons x order ih =>
    cases entries with
    | nil => simp [firstBadEntry]
    | cons e entries =>
      simp only [firstBadEntry]
      by_cases h : (e.name = x.1 && x.2.legal e.value) = true
      · rw [if_pos h, ih]
        simp only [Bool.and_eq_true, decide_eq_true_eq] at h
        simp [h]
      · rw [if_neg h]
        simp only [Bool.and_eq_true, decide_eq_true_eq] at h
        simp only [reduceCtorEq, List.map_cons, List.cons.injEq, List.zip_cons_cons, List.mem_cons,
          forall_eq_or_imp, false_iff]
        rintro ⟨⟨h1, _⟩, h2, _⟩
        exact h ⟨h1, h2⟩

theorem firstBadEntry_ge {order : List (String × Field)} {entries : List Entry} {position q : Nat}
    (h : firstBadEntry position order entries = some q) : position ≤ q := by
  induction order generalizing entries position with
  | nil =>
    cases entries
    · cases h
    · injection h with h
      omega
  | cons x order ih =>
    cases entries with
    | nil =>
      injection h with h
      omega
    | cons e entries =>
      simp only [firstBadEntry] at h
      split at h
      · have := ih h
        omega
      · injection h with h
        omega

/-- Every saved value but the stored count is legal whatever the channel holds (R200). -/
theorem legal_encode (ch : Channel) (h : ch.CountBound) (f : Field) : f.legal (f.encode ch) = true := by
  have bit : ∀ b : Bool, b.toNat ≤ 1 := by decide
  have half : ∀ x : Half, x.code ≤ 1 := by intro x; cases x <;> decide
  have mode : ∀ x : Mode, x.code.toNat ≤ 5 := by intro x; cases x <;> decide
  have access : ∀ x : AccessMode, 1 ≤ x.code.toNat ∧ x.code.toNat ≤ 3 := by intro x; cases x <;> decide
  have format : ∀ x : CountFormat, x.code.toNat ≤ 1 := by intro x; cases x <;> decide
  have phase : ∀ x : Phase, x.code ≤ 3 := by intro x; cases x <;> decide
  cases f
  case mode => exact decide_eq_true (mode _)
  case countFormat => exact decide_eq_true (format _)
  case accessMode =>
    exact Bool.and_eq_true_iff.2 ⟨decide_eq_true (access _).1, decide_eq_true (access _).2⟩
  case countRegister => exact decide_eq_true (Nat.le_of_lt_succ ch.countRegister.isLt)
  case currentCount => exact decide_eq_true h
  case armedUntilTick => rfl
  case phase => exact decide_eq_true (phase _)
  case latchedValue => exact decide_eq_true (Nat.le_of_lt_succ ch.latchedValue.isLt)
  case writeLow => exact decide_eq_true (Nat.le_of_lt_succ ch.writeLow.isLt)
  case latchedStatus => exact decide_eq_true (Nat.le_of_lt_succ ch.latchedStatus.isLt)
  case writeHalf => exact decide_eq_true (half _)
  case readHalf => exact decide_eq_true (half _)
  all_goals exact decide_eq_true (bit _)

/-- The 18 values saved of a channel give the channel back (R203). -/
theorem channelOfValues_encode (ch : Channel) : channelOfValues (fieldOrder.map fun f => f.encode ch) = ch := by
  simp only [fieldOrder, List.map_cons, List.map_nil, channelOfValues, Field.encode]
  cases ch
  rename_i ph m cf am wh wl rh cr cc nc g o l lv sl ls ar
  simp only [Channel.mk.injEq]
  refine ⟨?_, ?_, ?_, ?_, ?_, ?_, ?_, ?_, trivial, ?_, ?_, ?_, ?_, ?_, ?_, ?_, ?_⟩
  · cases ph <;> rfl
  · cases m <;> rfl
  · cases cf <;> rfl
  · cases am <;> rfl
  · cases wh <;> rfl
  · simp
  · cases rh <;> rfl
  · simp
  · cases nc <;> rfl
  · cases g <;> rfl
  · cases o <;> rfl
  · cases l <;> rfl
  · simp
  · cases sl <;> rfl
  · simp
  · cases ar <;> rfl

end Sys2Proof.Machine
end

