-- ==== Sys2Proof/Laws/PerInstr.lean ====
section
/-! SUPPORT. Per instruction: the word of an instruction matches its row of spec/opcode_table.json, that is the word
under the row's mask is the row's match (spec/30_encoding.md R83). -/

namespace Sys2Proof.Laws.RowPattern

/-- The row of an instruction: its match and its mask, copied from spec/opcode_table.json. -/
def row : Instr → TW × TW
  | .rdCnt0 _ => (0x000#11, 0x700#11)
  | .rdCnt1 _ => (0x100#11, 0x700#11)
  | .rdCnt2 _ => (0x200#11, 0x700#11)
  | .rdCtl _ => (0x300#11, 0x700#11)
  | .wrCnt0 _ => (0x400#11, 0x700#11)
  | .wrCnt1 _ => (0x500#11, 0x700#11)
  | .wrCnt2 _ => (0x600#11, 0x700#11)
  | .latch0 _ => (0x700#11, 0x7F0#11)
  | .latch1 _ => (0x740#11, 0x7F0#11)
  | .latch2 _ => (0x780#11, 0x7F0#11)
  | .progC0LsbM0 _ => (0x710#11, 0x7FE#11)
  | .progC0LsbM1 _ => (0x712#11, 0x7FE#11)
  | .progC0LsbM2 _ => (0x714#11, 0x7FE#11)
  | .progC0LsbM3 _ => (0x716#11, 0x7FE#11)
  | .progC0LsbM4 _ => (0x718#11, 0x7FE#11)
  | .progC0LsbM5 _ => (0x71A#11, 0x7FE#11)
  | .progC0LsbRsvd _ => (0x71C#11, 0x7FC#11)
  | .progC0MsbM0 _ => (0x720#11, 0x7FE#11)
  | .progC0MsbM1 _ => (0x722#11, 0x7FE#11)
  | .progC0MsbM2 _ => (0x724#11, 0x7FE#11)
  | .progC0MsbM3 _ => (0x726#11, 0x7FE#11)
  | .progC0MsbM4 _ => (0x728#11, 0x7FE#11)
  | .progC0MsbM5 _ => (0x72A#11, 0x7FE#11)
  | .progC0MsbRsvd _ => (0x72C#11, 0x7FC#11)
  | .progC0LohiM0 _ => (0x730#11, 0x7FE#11)
  | .progC0LohiM1 _ => (0x732#11, 0x7FE#11)
  | .progC0LohiM2 _ => (0x734#11, 0x7FE#11)
  | .progC0LohiM3 _ => (0x736#11, 0x7FE#11)
  | .progC0LohiM4 _ => (0x738#11, 0x7FE#11)
  | .progC0LohiM5 _ => (0x73A#11, 0x7FE#11)
  | .progC0LohiRsvd _ => (0x73C#11, 0x7FC#11)
  | .progC1LsbM0 _ => (0x750#11, 0x7FE#11)
  | .progC1LsbM1 _ => (0x752#11, 0x7FE#11)
  | .progC1LsbM2 _ => (0x754#11, 0x7FE#11)
  | .progC1LsbM3 _ => (0x756#11, 0x7FE#11)
  | .progC1LsbM4 _ => (0x758#11, 0x7FE#11)
  | .progC1LsbM5 _ => (0x75A#11, 0x7FE#11)
  | .progC1LsbRsvd _ => (0x75C#11, 0x7FC#11)
  | .progC1MsbM0 _ => (0x760#11, 0x7FE#11)
  | .progC1MsbM1 _ => (0x762#11, 0x7FE#11)
  | .progC1MsbM2 _ => (0x764#11, 0x7FE#11)
  | .progC1MsbM3 _ => (0x766#11, 0x7FE#11)
  | .progC1MsbM4 _ => (0x768#11, 0x7FE#11)
  | .progC1MsbM5 _ => (0x76A#11, 0x7FE#11)
  | .progC1MsbRsvd _ => (0x76C#11, 0x7FC#11)
  | .progC1LohiM0 _ => (0x770#11, 0x7FE#11)
  | .progC1LohiM1 _ => (0x772#11, 0x7FE#11)
  | .progC1LohiM2 _ => (0x774#11, 0x7FE#11)
  | .progC1LohiM3 _ => (0x776#11, 0x7FE#11)
  | .progC1LohiM4 _ => (0x778#11, 0x7FE#11)
  | .progC1LohiM5 _ => (0x77A#11, 0x7FE#11)
  | .progC1LohiRsvd _ => (0x77C#11, 0x7FC#11)
  | .progC2LsbM0 _ => (0x790#11, 0x7FE#11)
  | .progC2LsbM1 _ => (0x792#11, 0x7FE#11)
  | .progC2LsbM2 _ => (0x794#11, 0x7FE#11)
  | .progC2LsbM3 _ => (0x796#11, 0x7FE#11)
  | .progC2LsbM4 _ => (0x798#11, 0x7FE#11)
  | .progC2LsbM5 _ => (0x79A#11, 0x7FE#11)
  | .progC2LsbRsvd _ => (0x79C#11, 0x7FC#11)
  | .progC2MsbM0 _ => (0x7A0#11, 0x7FE#11)
  | .progC2MsbM1 _ => (0x7A2#11, 0x7FE#11)
  | .progC2MsbM2 _ => (0x7A4#11, 0x7FE#11)
  | .progC2MsbM3 _ => (0x7A6#11, 0x7FE#11)
  | .progC2MsbM4 _ => (0x7A8#11, 0x7FE#11)
  | .progC2MsbM5 _ => (0x7AA#11, 0x7FE#11)
  | .progC2MsbRsvd _ => (0x7AC#11, 0x7FC#11)
  | .progC2LohiM0 _ => (0x7B0#11, 0x7FE#11)
  | .progC2LohiM1 _ => (0x7B2#11, 0x7FE#11)
  | .progC2LohiM2 _ => (0x7B4#11, 0x7FE#11)
  | .progC2LohiM3 _ => (0x7B6#11, 0x7FE#11)
  | .progC2LohiM4 _ => (0x7B8#11, 0x7FE#11)
  | .progC2LohiM5 _ => (0x7BA#11, 0x7FE#11)
  | .progC2LohiRsvd _ => (0x7BC#11, 0x7FC#11)
  | .rdbk _ _ _ _ _ => (0x7C0#11, 0x7C1#11)
  | .rdbkRsvd _ => (0x7C1#11, 0x7C1#11)

/-- The word of `i` matches the row of `i`. -/
def Statement (i : Instr) : Prop := encodeWord i &&& (row i).2 = (row i).1

theorem rdCnt0 (d : Byte) : Statement (.rdCnt0 d) := by
  unfold Statement; decide +revert

theorem rdCnt1 (d : Byte) : Statement (.rdCnt1 d) := by
  unfold Statement; decide +revert

theorem rdCnt2 (d : Byte) : Statement (.rdCnt2 d) := by
  unfold Statement; decide +revert

theorem rdCtl (d : Byte) : Statement (.rdCtl d) := by
  unfold Statement; decide +revert

theorem wrCnt0 (d : Byte) : Statement (.wrCnt0 d) := by
  unfold Statement; decide +revert

theorem wrCnt1 (d : Byte) : Statement (.wrCnt1 d) := by
  unfold Statement; decide +revert

theorem wrCnt2 (d : Byte) : Statement (.wrCnt2 d) := by
  unfold Statement; decide +revert

theorem latch0 (ignored : BitVec 4) : Statement (.latch0 ignored) := by
  unfold Statement; decide +revert

theorem latch1 (ignored : BitVec 4) : Statement (.latch1 ignored) := by
  unfold Statement; decide +revert

theorem latch2 (ignored : BitVec 4) : Statement (.latch2 ignored) := by
  unfold Statement; decide +revert

theorem progC0LsbM0 (bcd : Bool) : Statement (.progC0LsbM0 bcd) := by
  unfold Statement; decide +revert

theorem progC0LsbM1 (bcd : Bool) : Statement (.progC0LsbM1 bcd) := by
  unfold Statement; decide +revert

theorem progC0LsbM2 (bcd : Bool) : Statement (.progC0LsbM2 bcd) := by
  unfold Statement; decide +revert

theorem progC0LsbM3 (bcd : Bool) : Statement (.progC0LsbM3 bcd) := by
  unfold Statement; decide +revert

theorem progC0LsbM4 (bcd : Bool) : Statement (.progC0LsbM4 bcd) := by
  unfold Statement; decide +revert

theorem progC0LsbM5 (bcd : Bool) : Statement (.progC0LsbM5 bcd) := by
  unfold Statement; decide +revert

theorem progC0LsbRsvd (ignored : BitVec 2) : Statement (.progC0LsbRsvd ignored) := by
  unfold Statement; decide +revert

theorem progC0MsbM0 (bcd : Bool) : Statement (.progC0MsbM0 bcd) := by
  unfold Statement; decide +revert

theorem progC0MsbM1 (bcd : Bool) : Statement (.progC0MsbM1 bcd) := by
  unfold Statement; decide +revert

theorem progC0MsbM2 (bcd : Bool) : Statement (.progC0MsbM2 bcd) := by
  unfold Statement; decide +revert

theorem progC0MsbM3 (bcd : Bool) : Statement (.progC0MsbM3 bcd) := by
  unfold Statement; decide +revert

theorem progC0MsbM4 (bcd : Bool) : Statement (.progC0MsbM4 bcd) := by
  unfold Statement; decide +revert

theorem progC0MsbM5 (bcd : Bool) : Statement (.progC0MsbM5 bcd) := by
  unfold Statement; decide +revert

theorem progC0MsbRsvd (ignored : BitVec 2) : Statement (.progC0MsbRsvd ignored) := by
  unfold Statement; decide +revert

theorem progC0LohiM0 (bcd : Bool) : Statement (.progC0LohiM0 bcd) := by
  unfold Statement; decide +revert

theorem progC0LohiM1 (bcd : Bool) : Statement (.progC0LohiM1 bcd) := by
  unfold Statement; decide +revert

theorem progC0LohiM2 (bcd : Bool) : Statement (.progC0LohiM2 bcd) := by
  unfold Statement; decide +revert

theorem progC0LohiM3 (bcd : Bool) : Statement (.progC0LohiM3 bcd) := by
  unfold Statement; decide +revert

theorem progC0LohiM4 (bcd : Bool) : Statement (.progC0LohiM4 bcd) := by
  unfold Statement; decide +revert

theorem progC0LohiM5 (bcd : Bool) : Statement (.progC0LohiM5 bcd) := by
  unfold Statement; decide +revert

theorem progC0LohiRsvd (ignored : BitVec 2) : Statement (.progC0LohiRsvd ignored) := by
  unfold Statement; decide +revert

theorem progC1LsbM0 (bcd : Bool) : Statement (.progC1LsbM0 bcd) := by
  unfold Statement; decide +revert

theorem progC1LsbM1 (bcd : Bool) : Statement (.progC1LsbM1 bcd) := by
  unfold Statement; decide +revert

theorem progC1LsbM2 (bcd : Bool) : Statement (.progC1LsbM2 bcd) := by
  unfold Statement; decide +revert

theorem progC1LsbM3 (bcd : Bool) : Statement (.progC1LsbM3 bcd) := by
  unfold Statement; decide +revert

theorem progC1LsbM4 (bcd : Bool) : Statement (.progC1LsbM4 bcd) := by
  unfold Statement; decide +revert

theorem progC1LsbM5 (bcd : Bool) : Statement (.progC1LsbM5 bcd) := by
  unfold Statement; decide +revert

theorem progC1LsbRsvd (ignored : BitVec 2) : Statement (.progC1LsbRsvd ignored) := by
  unfold Statement; decide +revert

theorem progC1MsbM0 (bcd : Bool) : Statement (.progC1MsbM0 bcd) := by
  unfold Statement; decide +revert

theorem progC1MsbM1 (bcd : Bool) : Statement (.progC1MsbM1 bcd) := by
  unfold Statement; decide +revert

theorem progC1MsbM2 (bcd : Bool) : Statement (.progC1MsbM2 bcd) := by
  unfold Statement; decide +revert

theorem progC1MsbM3 (bcd : Bool) : Statement (.progC1MsbM3 bcd) := by
  unfold Statement; decide +revert

theorem progC1MsbM4 (bcd : Bool) : Statement (.progC1MsbM4 bcd) := by
  unfold Statement; decide +revert

theorem progC1MsbM5 (bcd : Bool) : Statement (.progC1MsbM5 bcd) := by
  unfold Statement; decide +revert

theorem progC1MsbRsvd (ignored : BitVec 2) : Statement (.progC1MsbRsvd ignored) := by
  unfold Statement; decide +revert

theorem progC1LohiM0 (bcd : Bool) : Statement (.progC1LohiM0 bcd) := by
  unfold Statement; decide +revert

theorem progC1LohiM1 (bcd : Bool) : Statement (.progC1LohiM1 bcd) := by
  unfold Statement; decide +revert

theorem progC1LohiM2 (bcd : Bool) : Statement (.progC1LohiM2 bcd) := by
  unfold Statement; decide +revert

theorem progC1LohiM3 (bcd : Bool) : Statement (.progC1LohiM3 bcd) := by
  unfold Statement; decide +revert

theorem progC1LohiM4 (bcd : Bool) : Statement (.progC1LohiM4 bcd) := by
  unfold Statement; decide +revert

theorem progC1LohiM5 (bcd : Bool) : Statement (.progC1LohiM5 bcd) := by
  unfold Statement; decide +revert

theorem progC1LohiRsvd (ignored : BitVec 2) : Statement (.progC1LohiRsvd ignored) := by
  unfold Statement; decide +revert

theorem progC2LsbM0 (bcd : Bool) : Statement (.progC2LsbM0 bcd) := by
  unfold Statement; decide +revert

theorem progC2LsbM1 (bcd : Bool) : Statement (.progC2LsbM1 bcd) := by
  unfold Statement; decide +revert

theorem progC2LsbM2 (bcd : Bool) : Statement (.progC2LsbM2 bcd) := by
  unfold Statement; decide +revert

theorem progC2LsbM3 (bcd : Bool) : Statement (.progC2LsbM3 bcd) := by
  unfold Statement; decide +revert

theorem progC2LsbM4 (bcd : Bool) : Statement (.progC2LsbM4 bcd) := by
  unfold Statement; decide +revert

theorem progC2LsbM5 (bcd : Bool) : Statement (.progC2LsbM5 bcd) := by
  unfold Statement; decide +revert

theorem progC2LsbRsvd (ignored : BitVec 2) : Statement (.progC2LsbRsvd ignored) := by
  unfold Statement; decide +revert

theorem progC2MsbM0 (bcd : Bool) : Statement (.progC2MsbM0 bcd) := by
  unfold Statement; decide +revert

theorem progC2MsbM1 (bcd : Bool) : Statement (.progC2MsbM1 bcd) := by
  unfold Statement; decide +revert

theorem progC2MsbM2 (bcd : Bool) : Statement (.progC2MsbM2 bcd) := by
  unfold Statement; decide +revert

theorem progC2MsbM3 (bcd : Bool) : Statement (.progC2MsbM3 bcd) := by
  unfold Statement; decide +revert

theorem progC2MsbM4 (bcd : Bool) : Statement (.progC2MsbM4 bcd) := by
  unfold Statement; decide +revert

theorem progC2MsbM5 (bcd : Bool) : Statement (.progC2MsbM5 bcd) := by
  unfold Statement; decide +revert

theorem progC2MsbRsvd (ignored : BitVec 2) : Statement (.progC2MsbRsvd ignored) := by
  unfold Statement; decide +revert

theorem progC2LohiM0 (bcd : Bool) : Statement (.progC2LohiM0 bcd) := by
  unfold Statement; decide +revert

theorem progC2LohiM1 (bcd : Bool) : Statement (.progC2LohiM1 bcd) := by
  unfold Statement; decide +revert

theorem progC2LohiM2 (bcd : Bool) : Statement (.progC2LohiM2 bcd) := by
  unfold Statement; decide +revert

theorem progC2LohiM3 (bcd : Bool) : Statement (.progC2LohiM3 bcd) := by
  unfold Statement; decide +revert

theorem progC2LohiM4 (bcd : Bool) : Statement (.progC2LohiM4 bcd) := by
  unfold Statement; decide +revert

theorem progC2LohiM5 (bcd : Bool) : Statement (.progC2LohiM5 bcd) := by
  unfold Statement; decide +revert

theorem progC2LohiRsvd (ignored : BitVec 2) : Statement (.progC2LohiRsvd ignored) := by
  unfold Statement; decide +revert

theorem rdbk (nc ns k2 k1 k0 : Bool) : Statement (.rdbk nc ns k2 k1 k0) := by
  unfold Statement; decide +revert

theorem rdbkRsvd (ignored : BitVec 5) : Statement (.rdbkRsvd ignored) := by
  unfold Statement; decide +revert

end Sys2Proof.Laws.RowPattern
end

