-- ==== Sys2Proof/Laws/Step.lean ====
section
/-! SUPPORT. What a step can answer, said once: the inversion of `step` and of the expiry it may take, and what the
next due event is. -/

namespace Sys2Proof.Machine

/-- An expiry of channel `c` at tick `a`, with its result `d`. -/
def expired (a : Nat) (c : ChanId) (d : Drive) (s : State) : State :=
  (State.setChan c d.ch { s with now := a }).notify c d.calls

theorem expireStep_next {a : Nat} {c : ChanId} {s t : State} (h : expireStep a c s = .next t) :
    s.now ≤ a ∧ ∃ d, expiry a (s.params.clkPeriod c) (s.chan c) = .ok d ∧ t = expired a c d s := by
  unfold expireStep at h
  split at h
  · cases h
  · refine ⟨by omega, ?_⟩
    obtain ⟨d, hd⟩ := expiry_ok a (s.params.clkPeriod c) (s.chan c)
    rw [commit_ok hd] at h
    exact ⟨d, hd, by injection h with h; exact h.symm⟩

theorem expireStep_of_le {a : Nat} {c : ChanId} {s : State} (h : s.now ≤ a) {d : Drive}
    (hd : expiry a (s.params.clkPeriod c) (s.chan c) = .ok d) : expireStep a c s = .next (expired a c d s) := by
  rw [expireStep, if_neg (by omega), commit_ok hd]
  rfl

theorem afterExpiries_next {s t : State} {k : StepResult} (h : afterExpiries s k = .next t) :
    (∃ a c d, nextDue s.now s = some (a, c) ∧ s.now ≤ a ∧
      expiry a (s.params.clkPeriod c) (s.chan c) = .ok d ∧ t = expired a c d s) ∨
      (nextDue s.now s = none ∧ k = .next t) := by
  unfold afterExpiries at h
  split at h
  · obtain ⟨hle, d, hd, ht⟩ := expireStep_next h
    exact .inl ⟨_, _, d, ‹_›, hle, hd, ht⟩
  · exact .inr ⟨‹_›, h⟩

/-- Everything `Startup` can answer: nothing changes, or the first channel with an event in the past is fatal. -/
theorem startupStep_cases (s : State) :
    (s.hasPast = false ∧ startupStep s = .next s) ∨
      (s.hasPast = true ∧ ∃ c, startupStep s = takeFatal (.checkpointInconsistent c) s) := by
  unfold startupStep State.hasPast
  cases s.ch0.inPast s.now
  · cases s.ch1.inPast s.now
    · cases s.ch2.inPast s.now
      · exact .inl ⟨rfl, rfl⟩
      · exact .inr ⟨rfl, _, rfl⟩
    · exact .inr ⟨rfl, _, rfl⟩
  · exact .inr ⟨rfl, _, rfl⟩

/-- A `Startup` step: an expiry due at `now`, or the check, with nothing due or something in the past. -/
theorem startupCall_next {rest : List Input} {s t : State} (h : startupCall rest s = .next t) :
    (∃ a c d, nextDue s.now s = some (a, c) ∧ s.now ≤ a ∧
      expiry a (s.params.clkPeriod c) (s.chan c) = .ok d ∧ t = expired a c d s) ∨
      ((s.hasPast = true ∨ nextDue s.now s = none) ∧ startupStep (s.withPending rest) = .next t) := by
  unfold startupCall at h
  split at h
  · exact .inr ⟨.inl ‹_›, h⟩
  · exact (afterExpiries_next h).imp id fun ⟨hn, hk⟩ => ⟨.inr hn, hk⟩

theorem advanceStep_next {u : Nat} {rest : List Input} {s t : State} (h : advanceStep u rest s = .next t) :
    s.now ≤ u ∧
      ((∃ a c d, nextDue u s = some (a, c) ∧ s.now ≤ a ∧
        expiry a (s.params.clkPeriod c) (s.chan c) = .ok d ∧ t = expired a c d s) ∨
        (nextDue u s = none ∧ t = { s with now := u, pending := rest })) := by
  unfold advanceStep at h
  split at h
  · cases h
  · refine ⟨by omega, ?_⟩
    split at h
    · obtain ⟨hle, d, hd, ht⟩ := expireStep_next h
      exact .inl ⟨_, _, d, ‹_›, hle, hd, ht⟩
    · exact .inr ⟨‹_›, by injection h with h; exact h.symm⟩

/-- The ways a step takes the call at the head of the list, no expiry coming before it. -/
def TakesCall (s t : State) : Prop :=
  (∃ u rest, s.pending = .advance u :: rest ∧ s.now ≤ u ∧ nextDue u s = none ∧
      t = { s with now := u, pending := rest }) ∨
    (∃ tr rest, s.pending = .bus tr :: rest ∧ nextDue s.now s = none ∧ ioAccess tr (s.withPending rest) = .next t) ∨
    (∃ c level rest, s.pending = .gate c level :: rest ∧ nextDue s.now s = none ∧
      gateStep c level (s.withPending rest) = .next t) ∨
    (∃ rest, s.pending = .serialize :: rest ∧ nextDue s.now s = none ∧
      serializeStep (s.withPending rest) = .next t) ∨
    (∃ entries rest, s.pending = .restore entries :: rest ∧ restoreStep entries (s.withPending rest) = .next t) ∨
    (∃ rest, s.pending = .startup :: rest ∧ (s.hasPast = true ∨ nextDue s.now s = none) ∧
      startupStep (s.withPending rest) = .next t)

/-- Everything a step that answers a next state can be: idle, an expiry, or the taking of a call. -/
theorem step_cases {s t : State} (h : step s = .next t) :
    s.fatalCode = none ∧
      ((s.pending = [] ∧ t = s) ∨
        (∃ limit a c d, nextDue limit s = some (a, c) ∧ s.now ≤ a ∧
          (limit = s.now ∨ ∃ rest, s.pending = .advance limit :: rest) ∧
          expiry a (s.params.clkPeriod c) (s.chan c) = .ok d ∧ t = expired a c d s) ∨
        TakesCall s t) := by
  obtain ⟨hf, h⟩ := whileRunning_next (k := _) h
  refine ⟨hf, ?_⟩
  split at h
  · exact .inl ⟨‹_›, by injection h with h; exact h.symm⟩
  · rename_i u rest hp
    obtain ⟨hu, ⟨a, c, d, hn, ha, hd, ht⟩ | ⟨hn, ht⟩⟩ := advanceStep_next h
    · exact .inr (.inl ⟨u, a, c, d, hn, ha, .inr ⟨rest, hp⟩, hd, ht⟩)
    · exact .inr (.inr (.inl ⟨u, rest, hp, hu, hn, ht⟩))
  · rename_i tr rest hp
    obtain ⟨a, c, d, hn, ha, hd, ht⟩ | ⟨hn, hk⟩ := afterExpiries_next h
    · exact .inr (.inl ⟨_, a, c, d, hn, ha, .inl rfl, hd, ht⟩)
    · exact .inr (.inr (.inr (.inl ⟨tr, rest, hp, hn, hk⟩)))
  · rename_i c level rest hp
    obtain ⟨a, c, d, hn, ha, hd, ht⟩ | ⟨hn, hk⟩ := afterExpiries_next h
    · exact .inr (.inl ⟨_, a, c, d, hn, ha, .inl rfl, hd, ht⟩)
    · exact .inr (.inr (.inr (.inr (.inl ⟨c, level, rest, hp, hn, hk⟩))))
  · rename_i rest hp
    obtain ⟨a, c, d, hn, ha, hd, ht⟩ | ⟨hn, hk⟩ := afterExpiries_next h
    · exact .inr (.inl ⟨_, a, c, d, hn, ha, .inl rfl, hd, ht⟩)
    · exact .inr (.inr (.inr (.inr (.inr (.inl ⟨rest, hp, hn, hk⟩)))))
  · rename_i entries rest hp
    exact .inr (.inr (.inr (.inr (.inr (.inr (.inl ⟨entries, rest, hp, h⟩))))))
  · rename_i rest hp
    obtain ⟨a, c, d, hn, ha, hd, ht⟩ | ⟨hn, hk⟩ := startupCall_next h
    · exact .inr (.inl ⟨_, a, c, d, hn, ha, .inl rfl, hd, ht⟩)
    · exact .inr (.inr (.inr (.inr (.inr (.inr (.inr ⟨rest, hp, hn, hk⟩))))))

/-! ## The next due event -/

theorem dueBy_some {t a : Nat} {c c' : ChanId} {s : State} (h : dueBy t c s = some (a, c')) :
    c' = c ∧ (s.chan c).armedUntilTick = some a ∧ a ≤ t := by
  unfold dueBy at h
  split at h
  · cases h
  · split at h
    · injection h with h
      injection h with h1 h2
      subst h1 h2
      exact ⟨rfl, ‹_›, ‹_›⟩
    · cases h

theorem earlier_some {x y : Option (Nat × ChanId)} {p : Nat × ChanId} (h : earlier x y = some p) :
    x = some p ∨ y = some p := by
  unfold earlier at h
  split at h
  · exact .inr h
  · exact .inl h
  · split at h
    · exact .inl h
    · exact .inr h

theorem earlier_none {x y : Option (Nat × ChanId)} (h : earlier x y = none) : x = none ∧ y = none := by
  unfold earlier at h
  split at h
  · exact ⟨rfl, h⟩
  · cases h
  · split at h <;> cases h

theorem nextDue_some {t a : Nat} {c : ChanId} {s : State} (h : nextDue t s = some (a, c)) :
    (s.chan c).armedUntilTick = some a ∧ a ≤ t := by
  obtain ⟨c', h'⟩ : ∃ c', dueBy t c' s = some (a, c) := by
    obtain h | h := earlier_some h
    · exact ⟨_, h⟩
    · obtain h | h := earlier_some h <;> exact ⟨_, h⟩
  obtain ⟨rfl, h1, h2⟩ := dueBy_some h'
  exact ⟨h1, h2⟩

theorem nextDue_none {t : Nat} {s : State} (h : nextDue t s = none) :
    ∀ c, ∀ a ∈ (s.chan c).armedUntilTick, t < a := by
  intro c a ha
  have key : ∀ c, dueBy t c s = none := by
    obtain ⟨h0, h⟩ := earlier_none h
    obtain ⟨h1, h2⟩ := earlier_none h
    intro c
    cases c <;> assumption
  have hc := key c
  unfold dueBy at hc
  split at hc
  · simp_all
  · rename_i a' ha'
    simp only [ha', Option.mem_def, Option.some.injEq] at ha
    subst ha
    split at hc
    · cases hc
    · omega

theorem hasPast_iff {s : State} : s.hasPast = true ↔ ∃ c, ∃ a ∈ (s.chan c).armedUntilTick, a < s.now := by
  have key : ∀ ch : Channel, ch.inPast s.now = true ↔ ∃ a ∈ ch.armedUntilTick, a < s.now := by
    intro ch
    unfold Channel.inPast
    cases ch.armedUntilTick <;> simp
  simp only [State.hasPast, Bool.or_eq_true, key]
  constructor
  · rintro ((h | h) | h)
    exacts [⟨.c0, h⟩, ⟨.c1, h⟩, ⟨.c2, h⟩]
  · rintro ⟨c, h⟩
    cases c
    exacts [.inl (.inl h), .inl (.inr h), .inr h]

end Sys2Proof.Machine
end

