-- ==== Sys2Proof/Tests/Slice0.lean ====
section
/-! SUPPORT. The model's own tests: the smoke test of the well-formedness checks, a word of every constructor written
out from spec/30_encoding.md, single steps taken from spec/95_test_vectors.md, and for every statement with hypotheses a
state and operands that meet them. -/

namespace Sys2Proof.Tests

open Sys2Proof.Machine

/-! ## Small states -/

/-- `CLK_PERIOD = (1, 4, 1)`, three pins, all gates high at reset. -/
def params : Params :=
  { clkPeriod0 := 1, clkPeriod1 := 4, clkPeriod2 := 1, accessLatency := 7, numIntPins := 3, gateReset0 := true,
    gateReset1 := true, gateReset2 := true }

/-- The device after reset. -/
def fresh : State := State.resetWith params Channel.zero Channel.zero Channel.zero

/-- A channel programmed to a mode and an access mode, no count written yet. -/
def programmed (m : Mode) (am : AccessMode) : Channel :=
  { Channel.zero with
    phase := .awaitingReload, mode := m, accessMode := am, nullCount := true, gate := true, outputLevel := m != .m0 }

/-- A `LowOnly` channel counting `n`, its event at tick `a`. -/
def counting (m : Mode) (n a : Nat) : Channel :=
  { programmed m .lowOnly with
    phase := .counting, countRegister := BitVec.ofNat 16 n, currentCount := n, nullCount := false,
    outputLevel := m != .m0 && m != .m1, armedUntilTick := some a }

/-- A `LowOnly` channel of a level-gated mode, paused at `k` of `n`. -/
def paused (m : Mode) (n k : Nat) : Channel :=
  { counting m n 0 with currentCount := k, gate := false, armedUntilTick := none }

/-- A `LowOnly` channel halted after a run of `n`, its gate low. -/
def halted (m : Mode) (n : Nat) : Channel :=
  { counting m n 0 with
    phase := .halted, currentCount := 0, gate := false, outputLevel := true, armedUntilTick := none }

/-- The device at tick `now` with one channel in the given state. -/
def at0 (now : Nat) (ch : Channel) : State := { fresh with now := now, ch0 := ch }
def at1 (now : Nat) (ch : Channel) : State := { fresh with now := now, ch1 := ch }
def at2 (now : Nat) (ch : Channel) : State := { fresh with now := now, ch2 := ch }

/-- The same with one call pending. -/
def calling (i : Input) (s : State) : State := { s with pending := [i] }

/-- What a step leaves, if it answers a next state. -/
def after {α : Type} (r : StepResult) (f : State → α) : Option α :=
  match r with
  | .next t => some (f t)
  | .fault _ => none
  | .refused _ => none

/-- Why a step was refused, if it was. -/
def refusal (r : StepResult) : Option Refusal :=
  match r with
  | .next _ => none
  | .fault _ => none
  | .refused why => some why

/-- Why a step faulted, if it did. -/
def faulted (r : StepResult) : Option Fault :=
  match r with
  | .next _ => none
  | .fault why => some why
  | .refused _ => none

/-- A pin call. -/
def pin (tick : Nat) (c : ChanId) (level : Bool) : PinCall := { tick := tick, chan := c, level := level }

/-! ## Well-formedness: each check refuses an ill-formed term -/

theorem test_wellFormed_transaction :
    Transaction.wellFormed { address := 3, size := 1, direction := .write, payload := 0x34#8 } = true := by decide
theorem test_illFormed_size :
    Transaction.wellFormed { address := 0, size := 2, direction := .read, payload := 0#8 } = false := by decide
theorem test_illFormed_address :
    Transaction.wellFormed { address := 4, size := 1, direction := .read, payload := 0#8 } = false := by decide
theorem test_wellFormed_reads :
    Instr.wellFormed (.rdCnt0 0#8) = true ∧ Instr.wellFormed (.rdCtl 0#8) = true ∧
      Instr.wellFormed (.wrCnt0 0xFF#8) = true := by decide
theorem test_illFormed_read_payload :
    Instr.wellFormed (.rdCnt0 1#8) = false ∧ Instr.wellFormed (.rdCnt1 0x80#8) = false ∧
      Instr.wellFormed (.rdCnt2 0xFF#8) = false ∧ Instr.wellFormed (.rdCtl 4#8) = false := by decide

/-! ## Decoding: words written out from R80 to R90, fields `W A D` and, for `A = 3`, `W A SC RW M BCD` -/

-- 0 00 DDDDDDDD, 0 01 .., 0 10 .., 0 11 ..
theorem test_decode_reads :
    decodeWord 0b00000000000#11 = .rdCnt0 0#8 ∧ decodeWord 0b00100000000#11 = .rdCnt1 0#8 ∧
      decodeWord 0b01000000000#11 = .rdCnt2 0#8 ∧ decodeWord 0b01100000000#11 = .rdCtl 0#8 := by decide
-- 1 00 01100100, 1 01 11111111, 1 10 00000000 (V13)
theorem test_decode_writes :
    decodeWord 0b10001100100#11 = .wrCnt0 0x64#8 ∧ decodeWord 0b10111111111#11 = .wrCnt1 0xFF#8 ∧
      decodeWord 0b11000000000#11 = .wrCnt2 0#8 := by decide
-- 1 11 SC 00 xxxx
theorem test_decode_latches :
    decodeWord 0b11100001111#11 = .latch0 0xF#4 ∧ decodeWord 0b11101000000#11 = .latch1 0#4 ∧
      decodeWord 0b11110000101#11 = .latch2 5#4 := by decide
-- 1 11 11 NC NS K2 K1 K0 0, and 1 11 11 xxxxx 1
theorem test_decode_readBack :
    decodeWord 0b11111000010#11 = .rdbk false false false false true ∧
      decodeWord 0b11111011000#11 = .rdbk false true true false false ∧
      decodeWord 0b11111100100#11 = .rdbk true false false true false ∧
      decodeWord 0b11111000011#11 = .rdbkRsvd 1#5 ∧ decodeWord 0b11111111111#11 = .rdbkRsvd 31#5 := by decide
-- 1 11 00 01 MMM B
theorem test_decode_program_c0_lsb :
    decodeWord 0b11100010000#11 = .progC0LsbM0 false ∧ decodeWord 0b11100010011#11 = .progC0LsbM1 true ∧
      decodeWord 0b11100010100#11 = .progC0LsbM2 false ∧ decodeWord 0b11100010111#11 = .progC0LsbM3 true ∧
      decodeWord 0b11100011000#11 = .progC0LsbM4 false ∧ decodeWord 0b11100011011#11 = .progC0LsbM5 true ∧
      decodeWord 0b11100011101#11 = .progC0LsbRsvd 1#2 ∧ decodeWord 0b11100011110#11 = .progC0LsbRsvd 2#2 := by
  decide
-- 1 11 00 10 MMM B
theorem test_decode_program_c0_msb :
    decodeWord 0b11100100000#11 = .progC0MsbM0 false ∧ decodeWord 0b11100100011#11 = .progC0MsbM1 true ∧
      decodeWord 0b11100100100#11 = .progC0MsbM2 false ∧ decodeWord 0b11100100111#11 = .progC0MsbM3 true ∧
      decodeWord 0b11100101000#11 = .progC0MsbM4 false ∧ decodeWord 0b11100101011#11 = .progC0MsbM5 true ∧
      decodeWord 0b11100101101#11 = .progC0MsbRsvd 1#2 ∧ decodeWord 0b11100101110#11 = .progC0MsbRsvd 2#2 := by
  decide
-- 1 11 00 11 MMM B
theorem test_decode_program_c0_lohi :
    decodeWord 0b11100110000#11 = .progC0LohiM0 false ∧ decodeWord 0b11100110011#11 = .progC0LohiM1 true ∧
      decodeWord 0b11100110100#11 = .progC0LohiM2 false ∧ decodeWord 0b11100110111#11 = .progC0LohiM3 true ∧
      decodeWord 0b11100111000#11 = .progC0LohiM4 false ∧ decodeWord 0b11100111011#11 = .progC0LohiM5 true ∧
      decodeWord 0b11100111101#11 = .progC0LohiRsvd 1#2 ∧ decodeWord 0b11100111110#11 = .progC0LohiRsvd 2#2 := by
  decide
-- 1 11 01 01 MMM B
theorem test_decode_program_c1_lsb :
    decodeWord 0b11101010001#11 = .progC1LsbM0 true ∧ decodeWord 0b11101010010#11 = .progC1LsbM1 false ∧
      decodeWord 0b11101010101#11 = .progC1LsbM2 true ∧ decodeWord 0b11101010110#11 = .progC1LsbM3 false ∧
      decodeWord 0b11101011001#11 = .progC1LsbM4 true ∧ decodeWord 0b11101011010#11 = .progC1LsbM5 false ∧
      decodeWord 0b11101011101#11 = .progC1LsbRsvd 1#2 ∧ decodeWord 0b11101011110#11 = .progC1LsbRsvd 2#2 := by
  decide
-- 1 11 01 10 MMM B
theorem test_decode_program_c1_msb :
    decodeWord 0b11101100001#11 = .progC1MsbM0 true ∧ decodeWord 0b11101100010#11 = .progC1MsbM1 false ∧
      decodeWord 0b11101100101#11 = .progC1MsbM2 true ∧ decodeWord 0b11101100110#11 = .progC1MsbM3 false ∧
      decodeWord 0b11101101001#11 = .progC1MsbM4 true ∧ decodeWord 0b11101101010#11 = .progC1MsbM5 false ∧
      decodeWord 0b11101101101#11 = .progC1MsbRsvd 1#2 ∧ decodeWord 0b11101101110#11 = .progC1MsbRsvd 2#2 := by
  decide
-- 1 11 01 11 MMM B
theorem test_decode_program_c1_lohi :
    decodeWord 0b11101110001#11 = .progC1LohiM0 true ∧ decodeWord 0b11101110010#11 = .progC1LohiM1 false ∧
      decodeWord 0b11101110101#11 = .progC1LohiM2 true ∧ decodeWord 0b11101110110#11 = .progC1LohiM3 false ∧
      decodeWord 0b11101111001#11 = .progC1LohiM4 true ∧ decodeWord 0b11101111010#11 = .progC1LohiM5 false ∧
      decodeWord 0b11101111101#11 = .progC1LohiRsvd 1#2 ∧ decodeWord 0b11101111110#11 = .progC1LohiRsvd 2#2 := by
  decide
-- 1 11 10 01 MMM B
theorem test_decode_program_c2_lsb :
    decodeWord 0b11110010000#11 = .progC2LsbM0 false ∧ decodeWord 0b11110010011#11 = .progC2LsbM1 true ∧
      decodeWord 0b11110010100#11 = .progC2LsbM2 false ∧ decodeWord 0b11110010111#11 = .progC2LsbM3 true ∧
      decodeWord 0b11110011000#11 = .progC2LsbM4 false ∧ decodeWord 0b11110011011#11 = .progC2LsbM5 true ∧
      decodeWord 0b11110011101#11 = .progC2LsbRsvd 1#2 ∧ decodeWord 0b11110011110#11 = .progC2LsbRsvd 2#2 := by
  decide
-- 1 11 10 10 MMM B
theorem test_decode_program_c2_msb :
    decodeWord 0b11110100000#11 = .progC2MsbM0 false ∧ decodeWord 0b11110100011#11 = .progC2MsbM1 true ∧
      decodeWord 0b11110100100#11 = .progC2MsbM2 false ∧ decodeWord 0b11110100111#11 = .progC2MsbM3 true ∧
      decodeWord 0b11110101000#11 = .progC2MsbM4 false ∧ decodeWord 0b11110101011#11 = .progC2MsbM5 true ∧
      decodeWord 0b11110101101#11 = .progC2MsbRsvd 1#2 ∧ decodeWord 0b11110101110#11 = .progC2MsbRsvd 2#2 := by
  decide
-- 1 11 10 11 MMM B
theorem test_decode_program_c2_lohi :
    decodeWord 0b11110110000#11 = .progC2LohiM0 false ∧ decodeWord 0b11110110011#11 = .progC2LohiM1 true ∧
      decodeWord 0b11110110100#11 = .progC2LohiM2 false ∧ decodeWord 0b11110110111#11 = .progC2LohiM3 true ∧
      decodeWord 0b11110111000#11 = .progC2LohiM4 false ∧ decodeWord 0b11110111011#11 = .progC2LohiM5 true ∧
      decodeWord 0b11110111101#11 = .progC2LohiRsvd 1#2 ∧ decodeWord 0b11110111110#11 = .progC2LohiRsvd 2#2 := by
  decide

-- the encoder on the same words (V12, V13)
theorem test_encode :
    encodeWord (.progC0LohiM2 false) = 0x734#11 ∧ encodeWord (.progC2LsbM5 true) = 0x79B#11 ∧
      encodeWord (.latch2 0#4) = 0x780#11 ∧ encodeWord (.rdbk false false true true true) = 0x7CE#11 ∧
      encodeWord (.wrCnt1 0xFF#8) = 0x5FF#11 := by decide
theorem test_decode_rejects_size :
    decode { address := 0, size := 2, direction := .read, payload := 0#8 } = .error (.badSize 2) := by decide
theorem test_decode_rejects_address :
    decode { address := 4, size := 1, direction := .write, payload := 0#8 } = .error (.badAddress 4) := by decide
theorem test_decodeTableWord_whole_bytes :
    decodeTableWord 16 0x734 = some (.progC0LohiM2 false) ∧ decodeTableWord 8 0x64 = some (.rdCnt0 0x64#8) := by
  decide

/-! ## Pure functions (V10, V11) -/

theorem test_eff :
    eff Channel.zero = 65536 ∧ eff { Channel.zero with countFormat := .bcd } = 10000 ∧
      eff { Channel.zero with countRegister := 9999#16, countFormat := .bcd } = 9999 := by decide
theorem test_bcdDecode :
    bcdDecode 0x1234#16 = 1234 ∧ bcdDecode 0x00FA#16 = 99 ∧ bcdDecode 0xA000#16 = 9000 ∧
      bcdDecode 0x0A0A#16 = 909 := by decide
theorem test_enc :
    enc .binary 65536 = 0#16 ∧ enc .bcd 1234 = 0x1234#16 ∧ enc .bcd 10000 = 0#16 ∧ enc .bcd 98 = 0x98#16 := by
  decide
theorem test_status :
    status (counting .m2 1000 1000) = 0x94#8 ∧
      status { programmed .m5 .lowOnly with countFormat := .bcd } = 0xDB#8 ∧
      status { programmed .m3 .highOnly with nullCount := false, outputLevel := false } = 0x26#8 := by decide

/-! ## Single steps of the bus host -/

-- V14, V15: a mode program drives its level, cancels the run, keeps the count register
theorem test_program_mode0 :
    after (exec (.progC0LohiM0 true) (at0 4 (counting .m2 10 10))) (fun t =>
      (t.ch0.phase, t.ch0.armedUntilTick, t.ch0.countRegister, t.ch0.outputLevel, t.pinLog)) =
        some (.awaitingReload, none, 10#16, false, [pin 4 .c0 false]) := by decide
theorem test_program_mode5 :
    after (exec (.progC2LsbM5 false) fresh) (fun t => (t.ch2.mode, t.ch2.nullCount, t.ch2.outputLevel, t.pinLog)) =
      some (.m5, true, true, [pin 0 .c2 true]) := by decide
-- V16
theorem test_reserved_program :
    after (exec (.progC0LohiRsvd 0#2) (at0 3 (counting .m2 10 10))) (fun t => (t.ch0, t.pinLog, t.replies)) =
      some (counting .m2 10 10, [], [.wrote 7]) := by decide
-- V17
theorem test_write_highOnly :
    after (exec (.wrCnt1 2#8) (at1 0 (programmed .m2 .highOnly))) (fun t =>
      (t.ch1.countRegister, t.ch1.currentCount, t.ch1.armedUntilTick, t.pinLog)) =
        some (512#16, 512, some 2048, []) := by decide
theorem test_write_low_half :
    after (exec (.wrCnt2 0x34#8) (at2 0 (programmed .m2 .lowHigh))) (fun t =>
      (t.ch2.phase, t.ch2.writeLow, t.ch2.writeHalf, t.ch2.armedUntilTick)) =
        some (.awaitingReload, 0x34#8, .high, none) := by decide
-- V19
theorem test_write_bcd_clamps :
    after (exec (.wrCnt1 0x0C#8) (at1 0
      { programmed .m0 .lowHigh with countFormat := .bcd, writeHalf := .high, writeLow := 0xFA#8 })) (fun t =>
        (t.ch1.countRegister, t.ch1.currentCount, t.ch1.nullCount, t.pinLog)) =
          some (999#16, 999, false, [pin 0 .c1 false]) := by decide
-- V18
theorem test_write_zero_is_full_count :
    after (exec (.wrCnt0 0#8) (at0 0 (programmed .m2 .lowOnly))) (fun t =>
      (t.ch0.currentCount, t.ch0.armedUntilTick)) = some (65536, some 65536) := by decide
-- V22: the run goes on, the new count waits for the trigger
theorem test_write_mode1_waits :
    after (exec (.wrCnt1 4#8) (at1 8 (counting .m1 10 15))) (fun t =>
      (t.ch1.countRegister, t.ch1.armedUntilTick, t.ch1.phase, t.ch1.currentCount)) =
        some (4#16, some 15, .counting, 10) := by decide
-- R116's example: an odd count in mode 3 arms the long half
theorem test_write_mode3 :
    after (exec (.wrCnt2 5#8) (at2 20 (programmed .m3 .lowOnly))) (fun t =>
      (t.ch2.currentCount, t.ch2.outputLevel, t.ch2.armedUntilTick)) = some (5, true, some 23) := by decide
-- V42: loaded while the gate is low
theorem test_write_gate_low :
    after (exec (.wrCnt0 5#8) (at0 0 { programmed .m0 .lowOnly with gate := false })) (fun t =>
      (t.ch0.phase, t.ch0.currentCount, t.ch0.armedUntilTick)) = some (.counting, 5, none) := by decide
-- V51
theorem test_write_mode3_count1 :
    refusal (exec (.wrCnt0 1#8) (at0 0 (programmed .m3 .lowOnly))) = some .squareWaveCountOne := by decide
-- V23
theorem test_write_unprogrammed : after (exec (.wrCnt0 0x55#8) fresh) State.ch0 = some fresh.ch0 := by decide
-- V24: `CLK_PERIOD = 4`
theorem test_read_live :
    after (exec (.rdCnt1 0#8) (at1 3 (counting .m2 5 20))) State.replies = some [.read 5#8 7] ∧
      after (exec (.rdCnt1 0#8) (at1 4 (counting .m2 5 20))) State.replies = some [.read 4#8 7] := by decide
-- V7: the latch comes first and is released by the high byte
theorem test_read_latched :
    after (exec (.rdCnt0 0#8) (at0 300
      { counting .m2 1000 1000 with
        accessMode := .lowHigh, latched := true, latchedValue := 0x384#16, readHalf := .high })) (fun t =>
        (t.replies, t.ch0.latched, t.ch0.readHalf)) = some ([.read 3#8 7], false, .low) := by decide
-- V29: a latched status is read first and moves nothing else
theorem test_read_status_first :
    after (exec (.rdCnt0 0#8) (at0 10
      { counting .m2 100 100 with
        accessMode := .lowHigh, latched := true, statusLatched := true, latchedStatus := 0xB4#8 })) (fun t =>
        (t.replies, t.ch0.statusLatched, t.ch0.latched, t.ch0.readHalf)) =
          some ([.read 0xB4#8 7], false, true, .low) := by decide
-- V30: the high byte of the BCD count 1195
theorem test_read_bcd_high :
    after (exec (.rdCnt2 0#8) (at2 5 { counting .m2 1200 1200 with accessMode := .highOnly, countFormat := .bcd }))
      State.replies = some [.read 0x11#8 7] := by decide
-- V23, V25: any value, one draw, no field
theorem test_read_unprogrammed :
    after (exec (.rdCnt0 0#8) fresh) (fun t => (t.ch0, t.draws)) = some (fresh.ch0, 1) := by decide
theorem test_read_control :
    after (exec (.rdCtl 0#8) (at0 1 (counting .m2 3 4))) (fun t => (t.ch0, t.draws, t.replies.length)) =
      some (counting .m2 3 4, 1, 1) := by decide
-- V7: 900 = 0x0384; V7: the second latch is a no-op
theorem test_latch :
    after (exec (.latch0 0#4) (at0 100 (counting .m2 1000 1000))) (fun t => (t.ch0.latched, t.ch0.latchedValue)) =
      some (true, 0x384#16) := by decide
theorem test_latch_twice :
    after (exec (.latch0 0#4) (at0 300 { counting .m2 1000 1000 with latched := true, latchedValue := 0x384#16 }))
      (fun t => t.ch0.latchedValue) = some 0x384#16 := by decide
-- V28
theorem test_latch_unprogrammed : after (exec (.latch1 0#4) fresh) State.ch1 = some fresh.ch1 := by decide
-- V30 (there channel 1: mode 3, count 8) at tick 2: status 0x96 and count 6; status taken as it is before the count
theorem test_readBack :
    after (exec (.rdbk false false true false false) (at2 2 (counting .m3 8 4))) (fun t =>
      (t.ch2.latchedValue, t.ch2.latchedStatus, t.ch2.latched && t.ch2.statusLatched, t.ch0.latched)) =
        some (6#16, 0x96#8, true, false) := by decide
-- V30: `FE` latches nothing, `EE` the status only
theorem test_readBack_status_only :
    after (exec (.rdbk true false true true true) (at0 2 (counting .m2 16 16))) (fun t =>
      (t.ch0.latched, t.ch0.statusLatched)) = some (false, true) ∧
      after (exec (.rdbk true true true true true) (at0 2 (counting .m2 16 16))) State.ch0 =
        some (counting .m2 16 16) := by decide
-- V16
theorem test_reserved_readBack :
    after (exec (.rdbkRsvd 31#5) (at0 3 (counting .m2 10 10))) (fun t => (t.ch0, t.replies)) =
      some (counting .m2 10 10, [.wrote 7]) := by decide
-- V49, V50
theorem test_bad_size :
    after (step (calling (.bus { address := 0, size := 2, direction := .read, payload := 0#8 }) fresh))
      (fun t => (t.fatalCode, t.replies)) = some (some (.badAccess 0 2), []) := by decide
theorem test_bad_address :
    after (step (calling (.bus { address := 4, size := 1, direction := .write, payload := 0#8 }) fresh))
      State.fatalCode = some (some (.badAccess 4 1)) := by decide
-- R225
theorem test_after_fatal :
    faulted (step { fresh with fatalCode := some (.badAccess 4 1) }) = some (.terminated (.badAccess 4 1)) := by decide

/-! ## Time, gate, pins, checkpoint -/

-- V4: mode 3, count 5, end of the high half, end of the low half
theorem test_expiry_mode3_high :
    after (step (calling (.advance 3) (at2 1 (counting .m3 5 3)))) (fun t =>
      (t.now, t.ch2.outputLevel, t.ch2.currentCount, t.ch2.armedUntilTick, t.pinLog)) =
        some (3, false, 2, some 5, [pin 3 .c2 false]) := by decide
theorem test_expiry_mode3_low :
    after (step (calling (.advance 9) (at2 4 { counting .m3 5 5 with outputLevel := false, currentCount := 2 })))
      (fun t => (t.now, t.ch2.outputLevel, t.ch2.currentCount, t.ch2.armedUntilTick)) =
        some (5, true, 5, some 8) := by decide
-- V31, V32
theorem test_expiry_mode0 :
    after (step (calling (.advance 4) (at0 0 (counting .m0 4 4)))) (fun t =>
      (t.ch0.phase, t.ch0.currentCount, t.ch0.outputLevel, t.ch0.armedUntilTick, t.pinLog)) =
        some (.halted, 0, true, none, [pin 4 .c0 true]) := by decide
theorem test_expiry_mode1 :
    after (step (calling (.advance 24) (at0 23 (counting .m1 4 24)))) (fun t => (t.ch0.phase, t.pinLog)) =
      some (.halted, [pin 24 .c0 true]) := by decide
-- V33
theorem test_expiry_mode2 :
    after (step (calling (.advance 3) (at0 0 (counting .m2 1 1)))) (fun t =>
      (t.now, t.ch0.currentCount, t.ch0.armedUntilTick, t.pinLog)) =
        some (1, 1, some 2, [pin 1 .c0 false, pin 1 .c0 true]) := by decide
-- V36, V37
theorem test_expiry_mode4 :
    after (step (calling (.advance 6) (at0 0 (counting .m4 6 6)))) (fun t =>
      (t.ch0.phase, t.ch0.outputLevel, t.pinLog)) = some (.halted, true, [pin 6 .c0 false, pin 6 .c0 true]) := by decide
theorem test_expiry_mode5 :
    after (step (calling (.advance 56) (at0 50 (counting .m5 6 56)))) (fun t => (t.ch0.phase, t.pinLog)) =
      some (.halted, [pin 56 .c0 false, pin 56 .c0 true]) := by decide
-- V47: channel 0 before channel 2 at one tick, and before an access at that tick
theorem test_order_at_one_tick :
    after (step (calling (.advance 10) { at0 0 (counting .m2 10 10) with ch2 := counting .m2 10 10 })) (fun t =>
      (t.ch0.armedUntilTick, t.ch2.armedUntilTick, t.pending)) = some (some 20, some 10, [.advance 10]) := by decide
theorem test_expiry_before_access :
    after (step (calling (.bus { address := 0, size := 1, direction := .read, payload := 0#8 })
      (at0 10 (counting .m2 10 10)))) (fun t => (t.ch0.armedUntilTick, t.replies, t.pending.length)) =
        some (some 20, [], 1) := by decide
-- V48
theorem test_pin_not_wired :
    after (step (calling (.advance 2)
      { at1 0 (counting .m2 2 2) with params := { params with numIntPins := 1 } })) State.pinLog = some [] := by decide
-- V40: mode 3, count 7: frozen at 6 in the high half, resumed with 3 periods left
theorem test_gate_fall_mode3 :
    after (step (calling (.gate .c0 false) (at0 1 (counting .m3 7 4)))) (fun t =>
      (t.ch0.currentCount, t.ch0.armedUntilTick, t.ch0.gate, t.pinLog)) = some (6, none, false, []) := by decide
theorem test_gate_rise_mode3 :
    after (step (calling (.gate .c0 true) (at0 10 (paused .m3 7 6)))) (fun t =>
      (t.ch0.currentCount, t.ch0.armedUntilTick)) = some (6, some 13) := by decide
-- V41: `CLK_PERIOD = 4`
theorem test_gate_fall_mid_period :
    after (step (calling (.gate .c1 false) (at1 6 (counting .m2 5 20)))) (fun t => t.ch1.currentCount) =
      some 4 := by decide
-- V44: mode 4, nothing at the fall, a retrigger at the rise
theorem test_gate_fall_mode4 :
    after (step (calling (.gate .c0 false) (at0 4 (counting .m4 10 10)))) (fun t => t.ch0.armedUntilTick) =
      some (some 10) := by decide
theorem test_gate_rise_mode4 :
    after (step (calling (.gate .c0 true) (at0 6 { counting .m4 10 10 with gate := false }))) (fun t =>
      (t.ch0.armedUntilTick, t.pinLog)) = some (some 16, []) := by decide
-- V45
theorem test_gate_rise_mode1 :
    after (step (calling (.gate .c0 true) (at0 20 (halted .m1 4)))) (fun t =>
      (t.ch0.phase, t.ch0.armedUntilTick, t.ch0.nullCount, t.pinLog)) =
        some (.counting, some 24, false, [pin 20 .c0 false]) := by decide
-- V46
theorem test_gate_awaiting :
    after (step (calling (.gate .c0 true) (at0 0 { programmed .m5 .lowOnly with gate := false }))) (fun t =>
      (t.ch0.phase, t.ch0.gate, t.ch0.armedUntilTick)) = some (.awaitingReload, true, none) := by decide
-- U13
theorem test_time_does_not_go_back :
    refusal (step (calling (.advance 4) (at0 5 (counting .m2 9 9)))) = some .timeBackwards := by decide
-- U12: an event before `now`
theorem test_stale_event :
    refusal (step (calling (.gate .c1 true) (at0 10 (counting .m2 9 9)))) = some .staleEvent := by decide

-- V54: the list of a device with one running channel, and what is wrong with it
theorem test_restore_accepts : firstBadEntry 1 entryOrder (serialize (at0 7 (counting .m2 10 10))) = none := by decide
theorem test_restore_missing : firstBadEntry 1 entryOrder (serialize fresh).dropLast = some 54 := by decide
theorem test_restore_extra :
    firstBadEntry 1 entryOrder (serialize fresh ++ [{ name := "ch2.extra", value := 0 }]) = some 55 := by decide
theorem test_restore_renamed :
    firstBadEntry 1 entryOrder ({ name := "ch0.Mode", value := 0 } :: (serialize fresh).tail) = some 1 := by decide
theorem test_restore_swapped :
    firstBadEntry 1 entryOrder ({ name := "ch0.countFormat", value := 0 } :: { name := "ch0.mode", value := 0 } ::
      ((serialize fresh).drop 2)) = some 1 := by decide
theorem test_restore_ranges :
    Field.legal 6 .mode = false ∧ Field.legal 0 .accessMode = false ∧ Field.legal 65537 .currentCount = false ∧
      Field.legal 4 .phase = false ∧ Field.legal 2 .armed = false ∧ Field.legal 5 .mode = true ∧
      Field.legal 65536 .currentCount = true := by decide
-- V53
theorem test_restore :
    after (step (calling (.restore (serialize (at2 7 (counting .m3 9 9)))) { fresh with now := 7 })) (fun t =>
      (t.ch2, t.now, t.pinLog)) = some (counting .m3 9 9, 7, []) := by decide
-- V55, V56
theorem test_startup_past :
    after (step (calling .startup (at0 1001 (counting .m2 1000 1000)))) State.fatalCode =
      some (some (.checkpointInconsistent .c0)) := by decide
theorem test_startup_now :
    after (step (calling .startup (at2 9 { counting .m3 9 9 with outputLevel := false }))) (fun t =>
      (t.fatalCode, t.ch2, t.pinLog, t.pending)) =
      some (none, counting .m3 9 14, [⟨9, .c2, true⟩], [.startup]) := by decide
-- V8
theorem test_serialize_entries :
    ((serialize (at0 37 (counting .m2 100 100))).take 12).map Entry.value =
      [2, 0, 1, 100, 100, 1, 1, 0, 0, 1, 100, 2] := by decide

-- log entry 1: the first step after the placing runs the instruction; with no call nothing happens
theorem test_withFetchWord :
    after (step (State.reset.withFetchWord 16 0x734)) (fun t => (t.ch0.mode, t.ch0.accessMode, t.pending)) =
      some (.m2, .lowHigh, []) := by decide
theorem test_idle : after (step fresh) (fun t => decide (t = fresh)) = some true := by decide

/-! ## Witnesses: what meets the hypotheses of each statement, clause by clause -/

/-- A read of channel 0, well formed. -/
def readTransaction : Transaction := { address := 0, size := 1, direction := .read, payload := 0#8 }

theorem witness_fresh_inv : fresh.Inv := ⟨by decide, by and_intros <;> decide, by intro i h; cases h⟩
/-- A call that restores nothing brings no channel. -/
theorem inv_calling {s : State} {i : Input} (h : s.Inv) (hi : ∀ entries, i ≠ .restore entries) :
    (calling i s).Inv := by
  refine ⟨h.1, h.2.1, ?_⟩
  intro j hj
  obtain rfl := List.mem_singleton.1 hj
  cases j <;> first | trivial | exact absurd rfl (hi _)
theorem witness_counting_inv :
    (at0 3 (counting .m2 10 10)).Inv ∧ (at1 3 (counting .m3 5 12)).Inv ∧ (at2 3 (paused .m3 7 6)).Inv ∧
      (at0 3 (halted .m1 4)).Inv :=
  ⟨⟨by decide, by and_intros <;> decide, by intro i h; cases h⟩,
    ⟨by decide, by and_intros <;> decide, by intro i h; cases h⟩,
    ⟨by decide, by and_intros <;> decide, by intro i h; cases h⟩,
    ⟨by decide, by and_intros <;> decide, by intro i h; cases h⟩⟩
theorem witness_noStaleEvent :
    (at0 3 (counting .m2 10 10)).NoStaleEvent ∧ (at0 10 (counting .m2 10 10)).NoStaleEvent := by
  constructor <;> intro c <;> cases c <;> decide

theorem witness_StepRunsDecodedTransaction :
    let s := calling (.bus readTransaction) (at0 3 (counting .m2 10 10))
    s.Running ∧ s.pending = .bus readTransaction :: [] ∧ nextDue s.now s = none ∧
      decode readTransaction = .ok (.rdCnt0 0#8) := by decide
theorem witness_DueExpiryComesFirst :
    ∀ i ∈ [Input.bus readTransaction, .gate .c1 false, .serialize, .startup],
      let s := calling i (at0 10 (counting .m2 10 10))
      s.Running ∧ s.pending = i :: [] ∧ nextDue s.now s = some (10, .c0) ∧ s.now ≤ 10 := by decide
theorem witness_AdvanceMovesTime :
    let s := calling (.advance 9) (at0 3 (counting .m2 10 10))
    s.Running ∧ s.pending = .advance 9 :: [] ∧ s.now ≤ 9 ∧ nextDue 9 s = none := by decide
theorem witness_AdvanceLoopEnds :
    let s := calling (.advance 25) (at0 3 (counting .m2 10 10))
    s.Inv ∧ s.NoStaleEvent ∧ s.Running ∧ s.pending = .advance 25 :: [] ∧ s.now ≤ 25 := by
  exact ⟨inv_calling witness_counting_inv.1 (by intro e h; cases h), witness_noStaleEvent.1, rfl, rfl, by decide⟩
theorem witness_TimeAndPinLogOnlyGrow :
    ∃ t, step (calling (.advance 25) (at0 3 (counting .m2 10 10))) = .next t ∧ t.now ≠ 3 := ⟨_, rfl, by decide⟩
theorem witness_BadAccessIsFatal :
    ∀ tr ∈ [({ address := 0, size := 2, direction := .read, payload := 0#8 } : Transaction),
        { address := 3, size := 0, direction := .write, payload := 0#8 },
        { address := 4, size := 1, direction := .write, payload := 0#8 }],
      let s := calling (.bus tr) fresh
      s.Running ∧ s.pending = .bus tr :: [] ∧ nextDue s.now s = none ∧ (tr.size ≠ 1 ∨ tr.address ∉ [0, 1, 2, 3]) := by
  decide
theorem witness_FatalIsFinal :
    State.fatalCode { fresh with fatalCode := some (.doubleArm .c0) } = some (.doubleArm .c0) := by decide
theorem witness_FatalStepChangesNothingElse :
    ∃ t, step (calling .startup (at0 1001 (counting .m2 1000 1000))) = .next t ∧
      t.fatalCode = some (.checkpointInconsistent .c0) := ⟨_, rfl, by decide⟩
theorem witness_DoubleArmIsUnreachable :
    ∃ t, step (calling (.bus readTransaction) (at0 3 (counting .m2 10 10))) = .next t := ⟨_, rfl⟩
theorem witness_InvariantsKeptByEveryStep :
    (calling (.gate .c0 false) (at0 3 (counting .m2 10 10))).Inv ∧
      ∃ t, step (calling (.gate .c0 false) (at0 3 (counting .m2 10 10))) = .next t :=
  ⟨inv_calling witness_counting_inv.1 (by intro e h; cases h), _, rfl⟩
theorem witness_InvariantsHoldAtReset : params.Valid ∧ Channel.zero.CountBound := by decide
theorem witness_NoEventInThePast :
    let s := calling (.advance 25) (at0 3 (counting .m2 10 10))
    s.NoStaleEvent ∧ (∀ entries rest, s.pending ≠ .restore entries :: rest) ∧ ∃ t, step s = .next t := by
  exact ⟨witness_noStaleEvent.1, (by intro entries rest h; cases h), _, rfl⟩
theorem witness_ArmedIsAfterNowAtEveryAccess :
    (∃ t, step (calling (.bus readTransaction) (at0 3 (counting .m2 10 10))) = .next t ∧ t.pending = []) ∧
      (∃ t, step (calling (.gate .c0 false) (at0 3 (counting .m2 10 10))) = .next t ∧ t.pending = []) ∧
      (∃ t, step (calling .serialize (at0 3 (counting .m2 10 10))) = .next t ∧ t.pending = []) ∧
      ∃ t, step (calling .startup (at0 3 (counting .m2 10 10))) = .next t ∧ t.pending = [] ∧ t.fatalCode = none :=
  ⟨⟨_, rfl, rfl⟩, ⟨_, rfl, rfl⟩, ⟨_, rfl, rfl⟩, _, rfl, rfl, rfl⟩

theorem witness_EffectiveCount :
    (counting .m2 1 1).countRegister ≠ 0#16 ∧ Channel.zero.countRegister = 0#16 ∧
      Channel.zero.countFormat = .binary ∧ CountFormat.bcd = { Channel.zero with countFormat := .bcd }.countFormat := by
  decide
-- not armed; and both halves of the rule at the first and at the last period of a run
theorem witness_LiveCountsDownByPeriods :
    (paused .m2 5 3).armedUntilTick = none ∧ (0 < 4 ∧ (counting .m2 5 20).mode ≠ .m3 ∧ 0 < 5 ∧ (counting .m2 5 20).armedUntilTick = some (0 + 5 * 4)) ∧
      (3 < 4 ∧ 4 < 5) ∧
      ((counting .m3 5 12).mode = .m3 ∧ (counting .m3 5 12).outputLevel = true ∧ 2 < (eff (counting .m3 5 12) + 1) / 2 ∧
        (counting .m3 5 12).armedUntilTick = some (0 + (eff (counting .m3 5 12) + 1) / 2 * 4)) := by decide

theorem witness_ReadDataPort :
    (fresh.Running ∧ (fresh.chan .c0).phase = .unprogrammed) ∧
      ((counting .m2 5 20).phase ≠ .unprogrammed ∧ (counting .m2 5 20).statusLatched = false) ∧
      State.Running (at0 3 { counting .m2 5 20 with statusLatched := true }) ∧
      (State.chan (at0 3 { counting .m2 5 20 with statusLatched := true }) .c0).phase ≠ .unprogrammed ∧
      (State.chan (at0 3 { counting .m2 5 20 with statusLatched := true }) .c0).statusLatched = true := by decide
theorem witness_ReadsAreNonDisruptive :
    (encodeWord (.rdCnt0 0#8)).getLsbD 10 = false ∧
      ∃ t, exec (.rdCnt0 0#8) (at0 3 (counting .m2 10 10)) = .next t := ⟨by decide, _, rfl⟩
theorem witness_LatchCountCommand :
    fresh.Running ∧ (fresh.chan .c1).phase = .unprogrammed ∧
      { counting .m2 5 20 with latched := true }.latched = true ∧ (counting .m2 5 20).phase ≠ .unprogrammed ∧
      (counting .m2 5 20).latched = false := by decide
theorem witness_SecondLatchIsANoOp :
    ∃ t v, exec (Spec.latchInstr .c0 0#4) (at0 3 (counting .m2 10 10)) = .next t ∧
      exec (Spec.latchInstr .c0 1#4) { t with now := 8 } = .next v ∧
      State.chan { t with now := 8 } .c0 = t.chan .c0 :=
  ⟨_, _, rfl, rfl, rfl⟩
theorem witness_ReadControlPort_ReadBackCommand_ProgramChannel : fresh.Running := by decide
theorem witness_ReservedBytesDoNothing :
    fresh.Running ∧ Instr.rdbkRsvd 0#5 ∈ Spec.reservedInstrs 0#2 0#5 ∧
      Spec.reservedWord (encodeWord (.rdbkRsvd 0#5)) = true ∧ Spec.reservedWord 0x73C#11 = true ∧
      Spec.reservedWord 0x7C2#11 = false ∧ Spec.reservedWord 0x70F#11 = false := by decide

/-- A read-back command that selects no channel gives a next state (the last clause of the statement). -/
theorem witness_ReservedBytesDoNothing_next :
    ∃ t, fresh.Running ∧ exec (.rdbk false false false false false) fresh = .next t :=
  ⟨_, by decide, rfl⟩
theorem witness_OnlyAModeProgramLeavesUnprogrammed :
    (fresh.chan .c2).phase = .unprogrammed ∧
      ∃ t, exec (Spec.programInstr .c2 .lowHigh .m3 true) fresh = .next t ∧ (t.chan .c2).phase ≠ .unprogrammed :=
  ⟨by decide, _, rfl, by decide⟩

theorem witness_WriteWithoutACompleteCount :
    (fresh.Running ∧ (fresh.chan .c0).phase = .unprogrammed) ∧
      ((programmed .m2 .lowHigh).phase ≠ .unprogrammed ∧ (programmed .m2 .lowHigh).accessMode = .lowHigh ∧
        (programmed .m2 .lowHigh).writeHalf = .low) := by decide
-- every mode, every access mode, counts 1 (mode 0), 2 (mode 3) and 0
theorem witness_WriteLoadsInModes0234 :
    ∀ x ∈ [(Mode.m0, AccessMode.lowOnly, 1#8, 1#16), (.m2, .highOnly, 0#8, 0#16), (.m3, .lowOnly, 2#8, 2#16),
        (.m4, .highOnly, 0xFF#8, 0xFF00#16)],
      let s := at0 3 (programmed x.1 x.2.1)
      s.Running ∧ (s.chan .c0).phase ≠ .unprogrammed ∧ Spec.assembled (s.chan .c0) x.2.2.1 = some x.2.2.2 ∧
        (s.chan .c0).mode ≠ .m1 ∧ (s.chan .c0).mode ≠ .m5 ∧
        ¬((s.chan .c0).mode = .m3 ∧ eff (Spec.withCount (s.chan .c0) x.2.2.2) = 1) := by decide
theorem witness_WriteLoadsInModes0234_second_half :
    Spec.assembled { programmed .m2 .lowHigh with writeHalf := .high, writeLow := 0x34#8 } 0x12#8 = some 0x1234#16 := by
  decide
theorem witness_WriteWaitsForTheGateInModes15 :
    ∀ m ∈ [Mode.m1, .m5],
      let s := at1 3 (programmed m .lowOnly)
      s.Running ∧ (s.chan .c1).phase ≠ .unprogrammed ∧ Spec.assembled (s.chan .c1) 4#8 = some 4#16 ∧
        ((s.chan .c1).mode = .m1 ∨ (s.chan .c1).mode = .m5) := by decide
theorem witness_SquareWaveCountOneIsRefused :
    let s := at0 3 (programmed .m3 .lowOnly)
    s.Running ∧ (s.chan .c0).phase ≠ .unprogrammed ∧ Spec.assembled (s.chan .c0) 1#8 = some 1#16 ∧
      (s.chan .c0).mode = .m3 ∧ eff (Spec.withCount (s.chan .c0) 1#16) = 1 := by decide

theorem witness_AccessReachesOnlyItsChannels :
    Spec.reaches (encodeWord (.rdbk false false false true false)) .c0 = false ∧
      ∃ t, exec (.rdbk false false false true false) (at0 3 (counting .m2 10 10)) = .next t := ⟨by decide, _, rfl⟩
theorem witness_ChannelsAreIndependent :
    let s := at0 3 (counting .m2 10 10)
    let s' := { s with ch1 := programmed .m3 .lowHigh }
    s.chan .c0 = s'.chan .c0 ∧ s ≠ s' ∧
      ∃ t t', exec (.wrCnt0 5#8) s = .next t ∧ exec (.wrCnt0 5#8) s' = .next t' :=
  ⟨by decide, by decide, _, _, rfl, rfl⟩
theorem witness_EveryAccessReturnsTheLatency :
    (∃ t, exec (.wrCnt0 5#8) (at0 3 (counting .m2 10 10)) = .next t) ∧ ∃ t, exec (.rdCtl 0#8) fresh = .next t :=
  ⟨⟨_, rfl⟩, _, rfl⟩

theorem witness_expiries :
    ∀ m ∈ [Mode.m0, .m1, .m2, .m3, .m4, .m5],
      let s := calling (.advance 12) (at0 3 (counting m 10 10))
      s.Running ∧ s.pending = .advance 12 :: [] ∧ s.now ≤ 12 ∧ nextDue 12 s = some (10, .c0) ∧ s.now ≤ 10 ∧
        (s.chan .c0).mode = m := by decide
theorem witness_ExpiryEndsAOneShot :
    Spec.Expires 10 .c0 12 [] (calling (.advance 12) (at0 3 (counting .m0 10 10))) := by unfold Spec.Expires; decide
theorem witness_ExpiryStrobes :
    Spec.Expires 10 .c0 12 [] (calling (.advance 12) (at0 3 (counting .m4 10 10))) := by unfold Spec.Expires; decide
theorem witness_ExpiryReloadsInMode2 :
    Spec.Expires 10 .c0 12 [] (calling (.advance 12) (at0 3 (counting .m2 10 10))) := by unfold Spec.Expires; decide
theorem witness_ExpiryTogglesInMode3 :
    Spec.Expires 10 .c0 12 [] (calling (.advance 12) (at0 3 (counting .m3 14 10))) := by unfold Spec.Expires; decide
theorem witness_RateGeneratorPulsesOncePerPeriod :
    let s := calling (.advance 40) (at1 0 (counting .m2 5 20))
    s.Running ∧ (s.chan .c1).mode = .m2 ∧ (s.chan .c1).outputLevel = true ∧
      (s.chan .c1).currentCount = eff (s.chan .c1) ∧
      1 ≤ s.params.clkPeriod .c1 ∧
      (s.chan .c1).armedUntilTick = some (s.now + eff (s.chan .c1) * s.params.clkPeriod .c1) ∧
      (s.chan .c0).armedUntilTick = none ∧ (s.chan .c2).armedUntilTick = none ∧
      s.pending = .advance (s.now + 2 * (eff (s.chan .c1) * s.params.clkPeriod .c1)) :: [] := by decide
theorem witness_SquareWaveTogglesTwicePerPeriod :
    let s := calling (.advance 40) (at1 0 (counting .m3 5 12))
    s.Running ∧ (s.chan .c1).mode = .m3 ∧ (s.chan .c1).outputLevel = true ∧
      (s.chan .c1).currentCount = eff (s.chan .c1) ∧
      2 ≤ eff (s.chan .c1) ∧ 1 ≤ s.params.clkPeriod .c1 ∧
      (s.chan .c1).armedUntilTick = some (s.now + (eff (s.chan .c1) + 1) / 2 * s.params.clkPeriod .c1) ∧
      (s.chan .c0).armedUntilTick = none ∧ (s.chan .c2).armedUntilTick = none ∧
      s.pending = .advance (s.now + 2 * (eff (s.chan .c1) * s.params.clkPeriod .c1)) :: [] := by decide

-- unprogrammed; awaiting a count; the level it has; a fall in modes 1, 4, 5
theorem witness_GateLevelIsRecorded :
    ∀ s ∈ [fresh, at0 0 (programmed .m5 .lowOnly), at0 3 (counting .m4 10 10), at0 3 (counting .m1 10 10),
        at0 3 (counting .m5 10 10)],
      (calling (.gate .c0 false) s).Running ∧ nextDue s.now (calling (.gate .c0 false) s) = none ∧
        ((s.chan .c0).phase = .unprogrammed ∨ (s.chan .c0).phase = .awaitingReload ∨
          ((s.chan .c0).mode = .m1 ∨ (s.chan .c0).mode = .m4 ∨ (s.chan .c0).mode = .m5)) := by decide
theorem witness_GateLevelIsRecorded_same_level :
    (at0 3 (counting .m2 10 10)).Running ∧ ((at0 3 (counting .m2 10 10)).chan .c0).gate = true := by decide
theorem witness_GateFallPauses :
    ∀ ch ∈ [counting .m0 10 10, counting .m2 10 10, counting .m3 10 5, { halted .m0 10 with gate := true }],
      let s := calling (.gate .c0 false) (at0 3 ch)
      s.Running ∧ s.pending = .gate .c0 false :: [] ∧ nextDue s.now s = none ∧
        ((s.chan .c0).phase = .counting ∨ (s.chan .c0).phase = .halted) ∧ (s.chan .c0).gate = true ∧
        ((s.chan .c0).mode = .m0 ∨ (s.chan .c0).mode = .m2 ∨ (s.chan .c0).mode = .m3) := by decide
theorem witness_GateRiseResumes :
    ∀ ch ∈ [paused .m0 10 1, paused .m2 10 10, paused .m3 7 6, { paused .m3 7 3 with outputLevel := false },
        halted .m0 10],
      let s := calling (.gate .c0 true) (at0 3 ch)
      s.Running ∧ s.pending = .gate .c0 true :: [] ∧ nextDue s.now s = none ∧
        ((s.chan .c0).phase = .counting ∨ (s.chan .c0).phase = .halted) ∧ (s.chan .c0).gate = false ∧
        ((s.chan .c0).mode = .m0 ∨ (s.chan .c0).mode = .m2 ∨ (s.chan .c0).mode = .m3) := by decide
theorem witness_GateRiseTriggers :
    ∀ ch ∈ [halted .m1 4, { counting .m4 10 10 with gate := false }, halted .m5 6],
      let s := calling (.gate .c0 true) (at0 3 ch)
      s.Running ∧ s.pending = .gate .c0 true :: [] ∧ nextDue s.now s = none ∧
        ((s.chan .c0).phase = .counting ∨ (s.chan .c0).phase = .halted) ∧ (s.chan .c0).gate = false ∧
        ((s.chan .c0).mode = .m1 ∨ (s.chan .c0).mode = .m4 ∨ (s.chan .c0).mode = .m5) := by decide
theorem witness_GateNeverTouchesTheRest :
    Spec.GateCall .c0 true [] (calling (.gate .c0 true) (at0 20 (halted .m1 4))) ∧
      ∃ t, step (calling (.gate .c0 true) (at0 20 (halted .m1 4))) = .next t :=
  ⟨by unfold Spec.GateCall; decide, _, rfl⟩

theorem witness_SerializeReturnsTheList :
    let s := calling .serialize (at0 7 (counting .m2 10 10))
    s.Running ∧ s.pending = .serialize :: [] ∧ nextDue s.now s = none ∧ s.ch0.CountBound ∧ s.ch1.CountBound ∧
      s.ch2.CountBound := by decide
theorem witness_RestoreOfSavedListRoundTrips :
    let s := at0 7 (counting .m2 10 10)
    let u := calling (.restore (serialize s)) fresh
    s.ch0.CountBound ∧ s.ch1.CountBound ∧ s.ch2.CountBound ∧ u.Running ∧
      u.pending = .restore (serialize s) :: [] := by decide
theorem witness_RestoredInstanceBehavesTheSame :
    let s := at0 7 (counting .m2 10 10)
    let u := { fresh with now := 7, pending := [.restore (serialize s), .startup, .advance 9] }
    (s.Running ∧ u.Running ∧ u.params = s.params ∧ u.now = s.now ∧ u.draws = s.draws) ∧
      ∃ t, Sys2Proof.core.run 2 { s with pending := [.startup, .advance 9] } = .next t := ⟨by decide, _, rfl⟩
-- the good list, the list with nothing in it, and a list with one value at 6, one past its range
theorem witness_RestoreChecksTheList :
    ((serialize fresh).map Entry.name = Spec.officialNames ∧ Spec.AllInRange (serialize fresh)) ∧
      ([] : List Entry).map Entry.name ≠ Spec.officialNames ∧
      ¬Spec.AllInRange ({ name := "ch0.mode", value := 6 } :: (serialize fresh).tail) ∧
      Spec.AllInRange ({ name := "ch0.mode", value := 5 } :: (serialize fresh).tail) ∧
      (calling (.restore []) fresh).Running := by decide
theorem witness_SavedListIsSound : (at0 3 (counting .m2 10 10)).Inv := witness_counting_inv.1
theorem witness_StartupChecksForThePast :
    (calling .startup (at2 9 (counting .m3 9 9))).Running ∧
      (∀ c, ∀ a ∈ ((at2 8 (counting .m3 9 9)).chan c).armedUntilTick, 8 < a) ∧
      ((at2 9 (counting .m3 9 9)).chan .c2).armedUntilTick = some 9 ∧
      (∀ c, ∀ a ∈ ((at2 9 (counting .m3 9 9)).chan c).armedUntilTick, 9 ≤ a) ∧
      (∀ c, c.index < 2 → ((at2 9 (counting .m3 9 9)).chan c).armedUntilTick ≠ some 9) ∧
      ((at0 1001 (counting .m2 1000 1000)).chan .c0).armedUntilTick = some 1000 ∧ 1000 < 1001 :=
  ⟨by decide, by intro c; cases c <;> decide, by decide, by intro c; cases c <;> decide,
    by intro c; cases c <;> decide, by decide⟩

end Sys2Proof.Tests
end

section
/-! SUPPORT. What a bus access keeps, and what every step does to time and to the pin log (spec/00_scope.md R10, R11,
R30, spec/45_output_bridge.md R194). -/

namespace Sys2Proof.Machine

/-! ## The pin log -/

/-- From `s` to `t` no time passes, the parameters stay, and the pin log is extended by calls at this tick on wired
pins (R191, R194). -/
structure PinLogGrows (s t : State) : Prop where
  params : t.params = s.params
  now : t.now = s.now
  pinLog : ∃ more, t.pinLog = s.pinLog ++ more ∧
    ∀ p ∈ more, p.tick = s.now ∧ p.chan.index < s.params.numIntPins

/-- An operation that makes no pin call. -/
theorem PinLogGrows.of_eq {s t : State} (hparams : t.params = s.params) (hnow : t.now = s.now)
    (hpinLog : t.pinLog = s.pinLog) : PinLogGrows s t :=
  ⟨hparams, hnow, [], by simpa using hpinLog, by simp⟩

theorem pinLogGrows_notify (c : ChanId) (calls : List Bool) (s : State) : PinLogGrows s (s.notify c calls) := by
  refine ⟨rfl, rfl, _, notify_pinLog c calls s, ?_⟩
  intro p hp
  split at hp
  · obtain ⟨v, -, rfl⟩ := List.mem_map.1 hp
    exact ⟨rfl, ‹_›⟩
  · cases hp

/-- Writing a channel beforehand is no pin call. -/
theorem PinLogGrows.of_setChan {c : ChanId} {x : Channel} {s t : State} (h : PinLogGrows (s.setChan c x) t) :
    PinLogGrows s t := by
  obtain ⟨hparams, hnow, hpinLog⟩ := h
  exact ⟨by simpa using hparams, by simpa using hnow, by simpa using hpinLog⟩

theorem PinLogGrows.reply {s t : State} (h : PinLogGrows s t) (r : Reply) : PinLogGrows s (t.reply r) :=
  ⟨h.params, h.now, h.pinLog⟩

theorem PinLogGrows.drawn {s t : State} (h : PinLogGrows s t) : PinLogGrows s t.drawn :=
  ⟨h.params, h.now, h.pinLog⟩

theorem takeFatal_pinLogGrows {code : FatalCode} {s t : State} (h : takeFatal code s = .next t) :
    PinLogGrows s t := by
  injection h with h
  subst h
  exact .of_eq rfl rfl rfl

/-! ## Operations of a channel leave its gate alone (R30) -/

theorem readData_gate (now clk : Nat) (free : Byte) (ch : Channel) : (readData now clk free ch).1.gate = ch.gate := by
  obtain ⟨_, _, _, h⟩ := readData_frame now clk free ch
  rw [h]

theorem latchCount_gate (now clk : Nat) (ch : Channel) : (latchCount now clk ch).gate = ch.gate := by
  obtain ⟨_, _, h⟩ := latchCount_frame now clk ch
  rw [h]

theorem readBack_gate (nc ns k : Bool) (now clk : Nat) (ch : Channel) :
    (readBack nc ns k now clk ch).gate = ch.gate := by
  obtain ⟨_, _, _, _, h⟩ := readBack_frame nc ns k now clk ch
  rw [h]

theorem program_gate (am : AccessMode) (m : Mode) (bcd : Bool) (free : Nat) (ch : Channel) :
    (program am m bcd free ch).ch.gate = ch.gate := rfl

theorem loadAndArm_gate {now clk : Nat} {ch : Channel} {d : Drive} (h : loadAndArm now clk ch = .ok d) :
    d.ch.gate = ch.gate := by
  by_cases hone : ch.mode = .m3 ∧ eff ch = 1
  · rw [loadAndArm_refused hone] at h
    cases h
  · rw [loadAndArm_eq now clk ch hone] at h
    injection h with h
    subst h
    rfl

theorem countWritten_gate {now clk : Nat} {raw : BitVec 16} {ch : Channel} {d : Drive}
    (h : countWritten now clk raw ch = .ok d) : d.ch.gate = ch.gate := by
  unfold countWritten at h
  cases hm : ch.mode <;> simp only [hm] at h
  case m0 | m2 | m3 | m4 => exact (loadAndArm_gate h :)
  case m1 | m5 =>
    injection h with h
    subst h
    dsimp only
    split <;> rfl

theorem writeData_gate {now clk : Nat} {byte : Byte} {ch : Channel} {d : Drive}
    (h : writeData now clk byte ch = .ok d) : d.ch.gate = ch.gate := by
  unfold writeData at h
  split at h
  · injection h with h
    subst h
    rfl
  · split at h
    · exact (countWritten_gate h :)
    · exact (countWritten_gate h :)
    · injection h with h
      subst h
      rfl
    · exact (countWritten_gate h :)

/-! ## A bus access -/

/-- What every bus access leaves alone, and the one reply it adds: a payload byte or none, with the fixed latency
(R73, R184). -/
structure Access (reply : Nat → Reply) (s t : State) : Prop extends PinLogGrows s t where
  pending : t.pending = s.pending
  fatalCode : t.fatalCode = s.fatalCode
  gate : ∀ c, (t.chan c).gate = (s.chan c).gate
  replies : t.replies = s.replies ++ [reply s.params.accessLatency]

theorem access_replyRead (b : Byte) (s : State) : Access (.read b) s (s.replyRead b) where
  toPinLogGrows := .of_eq rfl rfl rfl
  pending := rfl
  fatalCode := rfl
  gate c := by simp [State.replyRead]
  replies := rfl

theorem access_notify_replyWrote (c : ChanId) (calls : List Bool) (s : State) :
    Access .wrote s (s.notify c calls).replyWrote where
  toPinLogGrows := (pinLogGrows_notify c calls s).reply _
  pending := rfl
  fatalCode := rfl
  gate c := by simp [State.replyWrote]
  replies := rfl

theorem access_replyWrote (s : State) : Access .wrote s s.replyWrote := by
  simpa using access_notify_replyWrote .c0 [] s

/-- A channel may be written beforehand, if its gate stays. -/
theorem Access.of_setChan {reply : Nat → Reply} {c : ChanId} {x : Channel} {s t : State}
    (h : Access reply (s.setChan c x) t) (hgate : x.gate = (s.chan c).gate) : Access reply s t where
  toPinLogGrows := h.toPinLogGrows.of_setChan
  pending := by simpa using h.pending
  fatalCode := by simpa using h.fatalCode
  gate c' := by
    rw [h.gate, chan_setChan]
    split
    · subst c'
      exact hgate
    · rfl
  replies := by simpa using h.replies

theorem Access.drawn {reply : Nat → Reply} {s t : State} (h : Access reply s t) : Access reply s t.drawn where
  toPinLogGrows := h.toPinLogGrows.drawn
  pending := h.pending
  fatalCode := h.fatalCode
  gate c := by simpa using h.gate c
  replies := h.replies

theorem Access.drawnByRead {reply : Nat → Reply} {s t : State} (h : Access reply s t) (ch : Channel) :
    Access reply s (drawnByRead ch t) := by
  unfold Machine.drawnByRead
  split
  · exact h.drawn
  all_goals exact h

/-! ## Every instruction is an access -/

theorem wordIsWrite_packWord (w : Bool) (a : BitVec 2) (d : Byte) : wordIsWrite (packWord w a d) = w := by
  cases w <;> simp only [wordIsWrite, packWord, BitVec.getLsbD_append] <;> rfl

/-- The instructions whose word has `W = 0` (R81). -/
theorem exec_of_read {i : Instr} (h : wordIsWrite (encodeWord i) = false) (s : State) :
    (∃ c, exec i s = busRead c s) ∨ exec i s = execRdCtl 0#8 s := by
  cases i
  case rdCnt0 | rdCnt1 | rdCnt2 => exact .inl ⟨_, rfl⟩
  case rdCtl => exact .inr rfl
  all_goals cases (wordIsWrite_packWord true _ _).symm.trans h

/-- The instructions whose word has `W = 1` (R81). -/
theorem exec_of_write {i : Instr} (h : wordIsWrite (encodeWord i) = true) (s : State) :
    (∃ c d, exec i s = busWrite c d s) ∨
      (∃ c, exec i s = busLatch c s) ∨
      (∃ c am m bcd, exec i s = busProgram c am m bcd s) ∨
      (∃ nc ns k2 k1 k0, exec i s = execRdbk nc ns k2 k1 k0 s) ∨
      exec i s = reservedWrite s := by
  cases i
  case rdCnt0 | rdCnt1 | rdCnt2 | rdCtl => cases (wordIsWrite_packWord false _ _).symm.trans h
  case wrCnt0 | wrCnt1 | wrCnt2 => exact .inl ⟨_, _, rfl⟩
  case latch0 | latch1 | latch2 => exact .inr (.inl ⟨_, rfl⟩)
  case rdbk => exact .inr (.inr (.inr (.inl ⟨_, _, _, _, _, rfl⟩)))
  case progC0LsbRsvd | progC0MsbRsvd | progC0LohiRsvd | progC1LsbRsvd | progC1MsbRsvd | progC1LohiRsvd |
      progC2LsbRsvd | progC2MsbRsvd | progC2LohiRsvd | rdbkRsvd =>
    exact .inr (.inr (.inr (.inr rfl)))
  all_goals exact .inr (.inr (.inl ⟨_, _, _, _, rfl⟩))

/-- R225: an instruction answers a next state only while no fatal code is recorded. -/
theorem exec_next_running {i : Instr} {s t : State} (h : exec i s = .next t) : s.fatalCode = none := by
  obtain ⟨_, hi⟩ | hi | ⟨_, _, hi⟩ | ⟨_, hi⟩ | ⟨_, _, _, _, hi⟩ | ⟨_, _, _, _, _, hi⟩ | hi := exec_shape i s
  all_goals
    rw [hi] at h
    exact (whileRunning_next h).1

theorem busRead_access {c : ChanId} {s t : State} (h : busRead c s = .next t) : ∃ b, Access (.read b) s t := by
  obtain rfl := busRead_next h
  exact ⟨_, ((access_replyRead _ _).of_setChan (readData_gate _ _ _ _)).drawnByRead _⟩

theorem busWrite_access {c : ChanId} {d : Byte} {s t : State} (h : busWrite c d s = .next t) :
    Access .wrote s t := by
  obtain ⟨x, hx, rfl⟩ := busWrite_next h
  exact (access_notify_replyWrote _ _ _).of_setChan (writeData_gate hx)

theorem execRdbk_access {nc ns k2 k1 k0 : Bool} {s t : State} (h : execRdbk nc ns k2 k1 k0 s = .next t) :
    Access .wrote s t := by
  obtain ⟨-, h⟩ := whileRunning_next h
  injection h with h
  subst h
  have turn {k : Bool} {c : ChanId} {u v : State} (hv : Access .wrote (readBackChannel nc ns k c u) v) :
      Access .wrote u v := hv.of_setChan (readBack_gate _ _ _ _ _ _)
  exact turn (turn (turn (access_replyWrote _)))

theorem exec_read_access {i : Instr} {s t : State} (hi : wordIsWrite (encodeWord i) = false)
    (h : exec i s = .next t) : ∃ b, Access (.read b) s t := by
  obtain ⟨c, hc⟩ | hc := exec_of_read hi s
  · exact busRead_access (hc.symm.trans h)
  · obtain rfl := execRdCtl_next (hc.symm.trans h)
    exact ⟨_, (access_replyRead _ s).drawn⟩

theorem exec_write_access {i : Instr} {s t : State} (hi : wordIsWrite (encodeWord i) = true)
    (h : exec i s = .next t) : Access .wrote s t := by
  obtain ⟨c, d, hc⟩ | ⟨c, hc⟩ | ⟨c, am, m, bcd, hc⟩ | ⟨nc, ns, k2, k1, k0, hc⟩ | hc := exec_of_write hi s <;>
    rw [hc] at h
  · exact busWrite_access h
  · obtain rfl := busLatch_next h
    exact (access_replyWrote _).of_setChan (latchCount_gate _ _ _)
  · obtain rfl := busProgram_next h
    exact ((access_notify_replyWrote _ _ _).of_setChan (program_gate _ _ _ _ _)).drawn
  · exact execRdbk_access h
  · obtain rfl := reservedWrite_next h
    exact access_replyWrote s

/-- R73, R184: a write returns the latency, a read a payload byte with it. -/
theorem exec_access {i : Instr} {s t : State} (h : exec i s = .next t) :
    ∃ reply, Access reply s t ∧ if wordIsWrite (encodeWord i) then reply = .wrote else ∃ b, reply = .read b := by
  split
  · exact ⟨_, exec_write_access ‹_› h, rfl⟩
  · obtain ⟨b, hb⟩ := exec_read_access (Bool.eq_false_of_not_eq_true ‹_›) h
    exact ⟨_, hb, b, rfl⟩

/-! ## Every step -/

theorem ioAccess_pinLogGrows {tr : Transaction} {s t : State} (h : ioAccess tr s = .next t) : PinLogGrows s t := by
  unfold ioAccess at h
  split at h
  · exact takeFatal_pinLogGrows h
  · obtain ⟨reply, haccess, -⟩ := exec_access h
    exact haccess.toPinLogGrows

theorem gateStep_pinLogGrows {c : ChanId} {level : Bool} {s t : State} (h : gateStep c level s = .next t) :
    PinLogGrows s t := by
  obtain ⟨d, -, rfl⟩ := gateStep_next h
  exact (pinLogGrows_notify _ _ _).of_setChan

theorem restoreStep_pinLogGrows {entries : List Entry} {s t : State} (h : restoreStep entries s = .next t) :
    PinLogGrows s t := by
  unfold restoreStep at h
  split at h
  · exact takeFatal_pinLogGrows h
  · injection h with h
    subst h
    exact .of_eq rfl rfl rfl

theorem startupStep_pinLogGrows {s t : State} (h : startupStep s = .next t) : PinLogGrows s t := by
  obtain ⟨-, hs⟩ | ⟨-, c, hs⟩ := startupStep_cases s <;> rw [hs] at h
  · injection h with h
    subst h
    exact .of_eq rfl rfl rfl
  · exact takeFatal_pinLogGrows h

theorem expired_pinLogGrows (a : Nat) (c : ChanId) (d : Drive) (s : State) :
    PinLogGrows { s with now := a } (expired a c d s) :=
  (pinLogGrows_notify _ _ _).of_setChan

/-- Taking the call of an `Advance` moves time to its target; no other call takes time. -/
theorem takesCall_pinLogGrows {s t : State} (h : TakesCall s t) :
    (∃ u rest, s.pending = .advance u :: rest ∧ s.now ≤ u ∧ t = { s with now := u, pending := rest }) ∨
      PinLogGrows s t := by
  -- a call comes off the list before it is taken, which none of the three fields shows
  have taken {rest : List Input} (ht : PinLogGrows (s.withPending rest) t) : PinLogGrows s t :=
    ⟨ht.params, ht.now, ht.pinLog⟩
  obtain ⟨u, rest, hp, hu, -, ht⟩ | ⟨tr, rest, -, -, ht⟩ | ⟨c, level, rest, -, -, ht⟩ | ⟨rest, -, -, ht⟩ |
    ⟨entries, rest, -, ht⟩ | ⟨rest, -, -, ht⟩ := h
  · exact .inl ⟨u, rest, hp, hu, ht⟩
  · exact .inr (taken (ioAccess_pinLogGrows ht))
  · exact .inr (taken (gateStep_pinLogGrows ht))
  · injection ht with ht
    subst ht
    exact .inr (.of_eq rfl rfl rfl)
  · exact .inr (taken (restoreStep_pinLogGrows ht))
  · exact .inr (taken (startupStep_pinLogGrows ht))

/-- R10, R150: a step takes place at one tick `a`, which is later than `now` only on the way of an `Advance`. -/
theorem step_pinLogGrows {s t : State} (h : step s = .next t) :
    ∃ a, s.now ≤ a ∧ (a ≠ s.now → ∃ u rest, s.pending = .advance u :: rest ∧ a ≤ u) ∧
      PinLogGrows { s with now := a } t := by
  obtain ⟨-, ⟨-, ht⟩ | ⟨limit, a, c, d, hdue, ha, hlimit, -, rfl⟩ | htakes⟩ := step_cases h
  · subst t
    exact ⟨_, le_rfl, fun hne => absurd rfl hne, .of_eq rfl rfl rfl⟩
  · refine ⟨a, ha, fun hne => ?_, expired_pinLogGrows a c d s⟩
    have hle : a ≤ limit := (nextDue_some hdue).2
    obtain rfl | ⟨rest, hp⟩ := hlimit
    · exact absurd (le_antisymm hle ha) hne
    · exact ⟨limit, rest, hp, hle⟩
  · obtain ⟨u, rest, hp, hu, rfl⟩ | ht := takesCall_pinLogGrows htakes
    · exact ⟨u, hu, fun _ => ⟨u, rest, hp, le_rfl⟩, .of_eq rfl rfl rfl⟩
    · exact ⟨s.now, le_rfl, fun hne => absurd rfl hne, ht⟩

/-! ## The statements -/

/-- Settles O10: a step takes place at one tick, and every shared operation only adds wired calls at its tick. -/
theorem timeAndPinLogOnlyGrow : Obligations.TimeAndPinLogOnlyGrow := by
  intro s t h
  obtain ⟨a, ha, hadvance, hparams, rfl, hpinLog⟩ := step_pinLogGrows h
  exact ⟨ha, hparams, hadvance, hpinLog⟩

/-- Settles O39: every instruction is a read access or a write access, as bit 10 of its word says. -/
theorem everyAccessReturnsTheLatency : Obligations.EveryAccessReturnsTheLatency := by
  intro i s t h
  obtain ⟨reply, haccess, hreply⟩ := exec_access h
  refine ⟨haccess.params, haccess.now, haccess.pending, haccess.fatalCode.trans (exec_next_running h), haccess.gate,
    _, haccess.replies, ?_⟩
  change if wordIsWrite (encodeWord i) then _ else _
  split at hreply
  · rw [if_pos ‹_›, hreply]
  · obtain ⟨b, rfl⟩ := hreply
    rw [if_neg ‹_›]
    exact ⟨b, rfl⟩

/-- Settles O58: the draw is `Channel.zero` for every channel. -/
theorem resetOfConfigParameters : Obligations.ResetOfConfigParameters := by
  have hgates : ∀ c, (State.reset.chan c).gate = true := by
    intro c
    cases c <;> rfl
  exact ⟨⟨.zero, .zero, .zero, rfl⟩, ⟨Nat.le_add_left _ _, Nat.le_add_left _ _, Nat.le_add_left _ _⟩, rfl, hgates,
    rfl, rfl, rfl⟩

end Sys2Proof.Machine
end

section
/-! SUPPORT. What an access makes of each channel (spec/10_state.md R20, spec/44_front_end.md R180 to R182): the
channels after every meaning, and every instruction as the front end reads it off the bits of its word. -/

namespace Sys2Proof.Machine

/-! ## The channels after each meaning -/

theorem busRead_chan {c : ChanId} {s t : State} (h : busRead c s = .next t) (c' : ChanId) :
    t.chan c' =
      if c' = c then (readData s.now (s.params.clkPeriod c) (Config.freeByte s.draws) (s.chan c)).1
      else s.chan c' := by
  obtain rfl := busRead_next h
  simp [State.replyRead, chan_setChan]

theorem execRdCtl_chan {d : Byte} {s t : State} (h : execRdCtl d s = .next t) (c : ChanId) :
    t.chan c = s.chan c := by
  obtain rfl := execRdCtl_next h
  simp [State.replyRead]

theorem busWrite_chan {c : ChanId} {d : Byte} {s t : State} (h : busWrite c d s = .next t) :
    ∃ x, writeData s.now (s.params.clkPeriod c) d (s.chan c) = .ok x ∧
      ∀ c', t.chan c' = if c' = c then x.ch else s.chan c' := by
  obtain ⟨x, hx, rfl⟩ := busWrite_next h
  exact ⟨x, hx, fun c' => by simp [State.replyWrote, chan_setChan]⟩

theorem busLatch_chan {c : ChanId} {s t : State} (h : busLatch c s = .next t) (c' : ChanId) :
    t.chan c' = if c' = c then latchCount s.now (s.params.clkPeriod c) (s.chan c) else s.chan c' := by
  obtain rfl := busLatch_next h
  simp [State.replyWrote, chan_setChan]

theorem busProgram_chan {c : ChanId} {am : AccessMode} {m : Mode} {bcd : Bool} {s t : State}
    (h : busProgram c am m bcd s = .next t) (c' : ChanId) :
    t.chan c' =
      if c' = c then (program am m bcd (Config.freeCount s.draws).val (s.chan c)).ch else s.chan c' := by
  obtain rfl := busProgram_next h
  simp [State.replyWrote, chan_setChan]

theorem execRdbk_chan {nc ns k2 k1 k0 : Bool} {s t : State} (h : execRdbk nc ns k2 k1 k0 s = .next t) (c : ChanId) :
    t.chan c = readBack nc ns (selects k2 k1 k0 c) s.now (s.params.clkPeriod c) (s.chan c) :=
  (execRdbk_next h).2.2 c

theorem reservedWrite_chan {s t : State} (h : reservedWrite s = .next t) (c : ChanId) : t.chan c = s.chan c := by
  obtain rfl := reservedWrite_next h
  simp [State.replyWrote]

theorem readBack_unselected (nc ns : Bool) (now clk : Nat) (ch : Channel) : readBack nc ns false now clk ch = ch := rfl

/-! ## The fields of a word (R80, R82) -/

/-- The control byte of a read-back command (R88). -/
def readBackByte (nc ns k2 k1 k0 : Bool) : Byte :=
  3#2 ++ BitVec.ofBool nc ++ BitVec.ofBool ns ++ BitVec.ofBool k2 ++ BitVec.ofBool k1 ++ BitVec.ofBool k0 ++ 0#1

section Fields

variable (w : Bool) (a : BitVec 2) (d : Byte) (sc rw : BitVec 2) (m : BitVec 3) (bcd : Bool)

theorem packWord_address : (packWord w a d).extractLsb' 8 2 = a := by
  rw [packWord, BitVec.extractLsb'_append_eq_of_le (by decide), BitVec.extractLsb'_append_eq_of_add_le (by decide)]
  exact BitVec.extractLsb'_eq_self

theorem packWord_payload : (packWord w a d).extractLsb' 0 8 = d := by
  rw [packWord, BitVec.extractLsb'_append_eq_of_add_le (by decide)]
  exact BitVec.extractLsb'_eq_self

theorem controlByte_fields :
    (controlByte sc rw m bcd).extractLsb' 6 2 = sc ∧ (controlByte sc rw m bcd).extractLsb' 4 2 = rw ∧
      (controlByte sc rw m bcd).extractLsb' 1 3 = m ∧ (controlByte sc rw m bcd).getLsbD 0 = bcd := by
  decide +revert

theorem latchByte_fields (low : BitVec 4) :
    (sc ++ 0#2 ++ low).extractLsb' 6 2 = sc ∧ (sc ++ 0#2 ++ low).extractLsb' 4 2 = 0#2 := by
  decide +revert

theorem reservedProgramByte_fields (low : BitVec 2) :
    (sc ++ rw ++ 3#2 ++ low).extractLsb' 6 2 = sc ∧ (sc ++ rw ++ 3#2 ++ low).extractLsb' 4 2 = rw ∧
      6 ≤ ((sc ++ rw ++ 3#2 ++ low).extractLsb' 1 3).toNat := by
  decide +revert

theorem readBackByte_fields (nc ns k2 k1 k0 : Bool) :
    (readBackByte nc ns k2 k1 k0).extractLsb' 6 2 = 3#2 ∧ (readBackByte nc ns k2 k1 k0).getLsbD 0 = false ∧
      (readBackByte nc ns k2 k1 k0).getLsbD 5 = nc ∧ (readBackByte nc ns k2 k1 k0).getLsbD 4 = ns ∧
      (readBackByte nc ns k2 k1 k0).getLsbD 3 = k2 ∧ (readBackByte nc ns k2 k1 k0).getLsbD 2 = k1 ∧
      (readBackByte nc ns k2 k1 k0).getLsbD 1 = k0 := by
  decide +revert

theorem reservedReadBackByte_fields (ignored : BitVec 5) :
    (3#2 ++ ignored ++ 1#1).extractLsb' 6 2 = 3#2 ∧ (3#2 ++ ignored ++ 1#1).getLsbD 0 = true := by
  decide +revert

end Fields

/-! ## Every instruction does what the bits of its word say -/

section FrontEnd

open Spec

theorem frontEnd_packWord (w : Bool) (a : BitVec 2) (d : Byte) (s : State) :
    frontEnd (packWord w a d) s =
      if w then
        if a = 3#2 then controlWrite d s else busWrite (channelOf a) d s
      else if a = 3#2 then execRdCtl d s
      else busRead (channelOf a) s := by
  have hw : (packWord w a d).getLsbD 10 = w := wordIsWrite_packWord w a d
  simp only [frontEnd, packWord_address, packWord_payload, hw]

theorem frontEnd_read {a : BitVec 2} (d : Byte) (s : State) (ha : a ≠ 3#2) :
    frontEnd (packWord false a d) s = busRead (channelOf a) s := by
  simp [frontEnd_packWord, ha]

theorem frontEnd_readControl (d : Byte) (s : State) : frontEnd (packWord false 3#2 d) s = execRdCtl d s := by
  simp [frontEnd_packWord]

theorem frontEnd_write {a : BitVec 2} (d : Byte) (s : State) (ha : a ≠ 3#2) :
    frontEnd (packWord true a d) s = busWrite (channelOf a) d s := by
  simp [frontEnd_packWord, ha]

theorem frontEnd_controlWord (d : Byte) (s : State) : frontEnd (controlWord d) s = controlWrite d s := by
  simp [controlWord, frontEnd_packWord]

theorem frontEnd_programWord {sc rw : BitVec 2} {m : BitVec 3} (bcd : Bool) (s : State) (hsc : sc ≠ 3#2)
    (hrw : rw ≠ 0#2) (hm : ¬6 ≤ m.toNat) :
    frontEnd (programWord sc rw m bcd) s = busProgram (channelOf sc) (accessOf rw) (modeOf m) bcd s := by
  obtain ⟨h1, h2, h3, h4⟩ := controlByte_fields sc rw m bcd
  simp only [programWord, frontEnd_controlWord, controlWrite, h1, h2, h3, h4, hsc, hrw, hm, if_false]

theorem frontEnd_reservedProgramWord {sc rw : BitVec 2} (low : BitVec 2) (s : State) (hsc : sc ≠ 3#2)
    (hrw : rw ≠ 0#2) : frontEnd (reservedProgramWord sc rw low) s = reservedWrite s := by
  obtain ⟨h1, h2, h3⟩ := reservedProgramByte_fields sc rw low
  simp only [reservedProgramWord, frontEnd_controlWord, controlWrite, h1, h2, hsc, hrw, h3, if_true, if_false]

theorem frontEnd_latchWord {sc : BitVec 2} (low : BitVec 4) (s : State) (hsc : sc ≠ 3#2) :
    frontEnd (latchWord sc low) s = busLatch (channelOf sc) s := by
  obtain ⟨h1, h2⟩ := latchByte_fields sc low
  simp only [latchWord, frontEnd_controlWord, controlWrite, h1, h2, hsc, if_true, if_false]

theorem frontEnd_readBack (nc ns k2 k1 k0 : Bool) (s : State) :
    frontEnd (encodeWord (.rdbk nc ns k2 k1 k0)) s = execRdbk nc ns k2 k1 k0 s := by
  obtain ⟨h1, h2, h3, h4, h5, h6, h7⟩ := readBackByte_fields nc ns k2 k1 k0
  change frontEnd (controlWord (readBackByte nc ns k2 k1 k0)) s = _
  simp only [frontEnd_controlWord, controlWrite, h1, h2, h3, h4, h5, h6, h7, if_true,
    Bool.false_eq_true, if_false]

theorem frontEnd_reservedReadBack (ignored : BitVec 5) (s : State) :
    frontEnd (encodeWord (.rdbkRsvd ignored)) s = reservedWrite s := by
  obtain ⟨h1, h2⟩ := reservedReadBackByte_fields ignored
  simp only [encodeWord, frontEnd_controlWord, controlWrite, h1, h2, if_true]

/-- R180, R181: every instruction is the access the front end reads off the bits of its word. -/
theorem frontEnd_encodeWord (i : Instr) (s : State) : frontEnd (encodeWord i) s = exec i s := by
  cases i
  case rdCnt0 | rdCnt1 | rdCnt2 => exact frontEnd_read _ s (by decide)
  case rdCtl => exact frontEnd_readControl _ s
  case wrCnt0 | wrCnt1 | wrCnt2 => exact frontEnd_write _ s (by decide)
  case latch0 | latch1 | latch2 => exact frontEnd_latchWord _ s (by decide)
  case rdbk => exact frontEnd_readBack _ _ _ _ _ s
  case rdbkRsvd => exact frontEnd_reservedReadBack _ s
  case progC0LsbRsvd | progC0MsbRsvd | progC0LohiRsvd | progC1LsbRsvd | progC1MsbRsvd | progC1LohiRsvd |
      progC2LsbRsvd | progC2MsbRsvd | progC2LohiRsvd =>
    exact frontEnd_reservedProgramWord _ s (by decide) (by decide)
  all_goals exact frontEnd_programWord _ s (by decide) (by decide) (by decide)

/-! ## What the bits of a word do not reach (R182) -/

theorem ne_channelOf {f : BitVec 2} {c : ChanId} (hf : f ≠ 3#2) (h : (f.toNat == c.index) = false) :
    c ≠ channelOf f := by
  cases c <;> decide +revert

theorem payload_extractLsb' (w : TW) : (w.extractLsb' 0 8).extractLsb' 6 2 = w.extractLsb' 6 2 := by
  ext i hi
  simp [BitVec.getElem_extractLsb']

theorem payload_select (w : TW) (c : ChanId) :
    (w.extractLsb' 0 8).getLsbD (1 + c.index) = w.getLsbD (1 + c.index) := by
  cases c <;> simp [ChanId.index]

/-- The select bits of a read-back command, by channel (R88). -/
theorem selects_payload (d : Byte) (c : ChanId) :
    selects (d.getLsbD 3) (d.getLsbD 2) (d.getLsbD 1) c = d.getLsbD (1 + c.index) := by
  cases c <;> rfl

/-- R181, R182: a control byte reaches the channel its `SC` bits name, a read-back those its select bits name. -/
theorem controlWrite_unreached {d : Byte} {s t : State} {c : ChanId} (h : controlWrite d s = .next t)
    (hsc : d.extractLsb' 6 2 ≠ 3#2 → c ≠ channelOf (d.extractLsb' 6 2))
    (hselect : d.extractLsb' 6 2 = 3#2 → d.getLsbD (1 + c.index) = false) : t.chan c = s.chan c := by
  simp only [controlWrite] at h
  split at h
  · split at h
    · exact reservedWrite_chan h c
    · rw [execRdbk_chan h, selects_payload, hselect ‹_›, readBack_unselected]
  · have hne := hsc ‹_›
    split at h
    · rw [busLatch_chan h, if_neg hne]
    · split at h
      · exact reservedWrite_chan h c
      · rw [busProgram_chan h, if_neg hne]

theorem frontEnd_unreached {w : TW} {s t : State} {c : ChanId} (h : frontEnd w s = .next t)
    (hreach : reaches w c = false) : t.chan c = s.chan c := by
  simp only [reaches] at hreach
  simp only [frontEnd] at h
  by_cases ha : w.extractLsb' 8 2 = 3#2
  · simp only [ha, ne_eq, not_true, if_false, if_true] at hreach h
    split at h
    · rename_i hwrite
      simp only [hwrite, Bool.true_eq_false, if_false] at hreach
      refine controlWrite_unreached h (fun hsc => ?_) (fun hsc => ?_) <;>
        rw [payload_extractLsb'] at hsc <;> simp only [hsc, not_false_eq_true, not_true, if_true, if_false] at hreach
      · rw [payload_extractLsb']
        exact ne_channelOf hsc hreach
      · rw [payload_select]
        exact hreach
    · exact execRdCtl_chan h c
  · simp only [ha, ne_eq, not_false_eq_true, if_true, if_false] at hreach h
    have hne := ne_channelOf ha hreach
    split at h
    · obtain ⟨x, -, hchan⟩ := busWrite_chan h
      rw [hchan, if_neg hne]
    · rw [busRead_chan h, if_neg hne]

/-! ## A channel after an access depends on that channel alone (R20) -/

/-- What an access may read of channel `c` is the same in two states: the channel, the tick, the parameters and the
count of draws. -/
structure AgreeOn (c : ChanId) (s s' : State) : Prop where
  chan : s.chan c = s'.chan c
  now : s.now = s'.now
  params : s.params = s'.params
  draws : s.draws = s'.draws

/-- What an access makes of a channel is the same from any two states that agree on it. -/
def Channelwise (access : State → StepResult) : Prop :=
  ∀ ⦃c : ChanId⦄ ⦃s s' t t' : State⦄, AgreeOn c s s' → access s = .next t → access s' = .next t' →
    t.chan c = t'.chan c

theorem Channelwise.ite {p : Prop} [Decidable p] {f g : State → StepResult} (hf : Channelwise f)
    (hg : Channelwise g) : Channelwise fun s => if p then f s else g s := by
  by_cases hp : p
  · simpa only [if_pos hp] using hf
  · simpa only [if_neg hp] using hg

theorem channelwise_busRead (c : ChanId) : Channelwise (busRead c) := by
  intro c' s s' t t' hagree h h'
  rw [busRead_chan h, busRead_chan h']
  split
  · subst c'
    rw [hagree.chan, hagree.now, hagree.params, hagree.draws]
  · exact hagree.chan

theorem channelwise_execRdCtl (d : Byte) : Channelwise (execRdCtl d) := by
  intro c s s' t t' hagree h h'
  rw [execRdCtl_chan h, execRdCtl_chan h', hagree.chan]

theorem channelwise_busWrite (c : ChanId) (d : Byte) : Channelwise (busWrite c d) := by
  intro c' s s' t t' hagree h h'
  obtain ⟨x, hx, hchan⟩ := busWrite_chan h
  obtain ⟨x', hx', hchan'⟩ := busWrite_chan h'
  rw [hchan, hchan']
  split
  · subst c'
    rw [hagree.chan, hagree.now, hagree.params, hx'] at hx
    injection hx with hx
    rw [hx]
  · exact hagree.chan

theorem channelwise_busLatch (c : ChanId) : Channelwise (busLatch c) := by
  intro c' s s' t t' hagree h h'
  rw [busLatch_chan h, busLatch_chan h']
  split
  · subst c'
    rw [hagree.chan, hagree.now, hagree.params]
  · exact hagree.chan

theorem channelwise_busProgram (c : ChanId) (am : AccessMode) (m : Mode) (bcd : Bool) :
    Channelwise (busProgram c am m bcd) := by
  intro c' s s' t t' hagree h h'
  rw [busProgram_chan h, busProgram_chan h']
  split
  · subst c'
    rw [hagree.chan, hagree.draws]
  · exact hagree.chan

theorem channelwise_execRdbk (nc ns k2 k1 k0 : Bool) : Channelwise (execRdbk nc ns k2 k1 k0) := by
  intro c s s' t t' hagree h h'
  rw [execRdbk_chan h, execRdbk_chan h', hagree.chan, hagree.now, hagree.params]

theorem channelwise_reservedWrite : Channelwise reservedWrite := by
  intro c s s' t t' hagree h h'
  rw [reservedWrite_chan h, reservedWrite_chan h', hagree.chan]

theorem channelwise_controlWrite (d : Byte) : Channelwise (controlWrite d) :=
  .ite (.ite channelwise_reservedWrite (channelwise_execRdbk _ _ _ _ _))
    (.ite (channelwise_busLatch _) (.ite channelwise_reservedWrite (channelwise_busProgram _ _ _ _)))

theorem channelwise_frontEnd (w : TW) : Channelwise (frontEnd w) :=
  .ite (.ite (channelwise_controlWrite _) (channelwise_busWrite _ _))
    (.ite (channelwise_execRdCtl _) (channelwise_busRead _))

end FrontEnd

/-! ## The statements -/

/-- Settles O37: the front end reads the channel it writes off the same bits as `Spec.reaches`. -/
theorem accessReachesOnlyItsChannels : Obligations.AccessReachesOnlyItsChannels := by
  intro i s t c h hreach
  rw [← frontEnd_encodeWord] at h
  exact frontEnd_unreached h hreach

/-- Settles O38: the same bits choose the same access in both states, and it reads the one channel it writes. -/
theorem channelsAreIndependent : Obligations.ChannelsAreIndependent := by
  intro i c s s' t t' hchan hnow hparams hdraws h h'
  rw [← frontEnd_encodeWord] at h h'
  exact channelwise_frontEnd _ ⟨hchan, hnow, hparams, hdraws⟩ h h'

end Sys2Proof.Machine
end

section
/-! SUPPORT. The invariants of one channel (spec/10_state.md R42): what they say phase by phase, and that every
operation of a channel keeps them. -/

namespace Sys2Proof.Machine

/-! ## Counts in BCD format -/

theorem bcdDecode_le (raw : BitVec 16) : bcdDecode raw ≤ 9999 := by
  have digit (lo : Nat) : bcdDigit raw lo ≤ 9 := Nat.min_le_right _ _
  have := digit 0
  have := digit 4
  have := digit 8
  have := digit 12
  unfold bcdDecode
  omega

/-- R113 makes (I7) true: a count written in BCD format is at most 9999. -/
theorem countOf_bcd_le (raw : BitVec 16) : (countOf .bcd raw).toNat ≤ 9999 := by
  have := bcdDecode_le raw
  simp only [countOf, BitVec.toNat_ofNat]
  omega

/-! ## The most periods an armed channel can have left -/

theorem mostPeriods_high {ch : Channel} (hm : ch.mode = .m3) (ho : ch.outputLevel = true) :
    ch.mostPeriods = (eff ch + 1) / 2 := by
  simp [Channel.mostPeriods, hm, ho]

theorem mostPeriods_low {ch : Channel} (hm : ch.mode = .m3) (ho : ch.outputLevel = false) :
    ch.mostPeriods = eff ch / 2 := by
  simp [Channel.mostPeriods, hm, ho]

theorem mostPeriods_other {ch : Channel} (hm : ch.mode ≠ .m3) : ch.mostPeriods = 65536 := by
  cases h : ch.mode <;> simp_all [Channel.mostPeriods]

/-! ## The invariants, phase by phase -/

/-- What the invariants ask of a channel whose count is complete, armed or not: (I6), (I7), (I9) and R28. -/
structure Channel.Loaded (ch : Channel) : Prop where
  halves : ch.accessMode ≠ .lowHigh → ch.writeHalf = .low ∧ ch.readHalf = .low
  bcd : ch.countFormat = .bcd → ch.countRegister.toNat ≤ 9999
  square : ch.mode = .m3 → 2 ≤ eff ch
  count : ch.currentCount ≤ 65536

variable {now clk : Nat} {ch : Channel}

theorem inv_iff_of_not_counting (hp : ch.phase ≠ .counting) :
    ch.Inv now clk ↔ ch.armedUntilTick = none ∧ ch.I5 ∧ ch.I6 ∧ ch.I7 ∧ ch.CountBound := by
  have hpaused : ch.paused = false := by simp [Channel.paused, hp]
  constructor
  · intro ⟨h1, _, _, h5, h6, h7, _, _, hc, _⟩
    refine ⟨?_, h5, h6, h7, hc⟩
    simpa [Channel.armed] using mt h1 hp
  · intro ⟨ha, h5, h6, h7, hc⟩
    have harmed : ch.armed = false := by simp [Channel.armed, ha]
    refine ⟨?_, ?_, ?_, h5, h6, h7, ?_, fun _ h => absurd h hp, hc, ?_, ?_⟩ <;> simp [harmed, hpaused, ha]

theorem inv_iff_of_armed {a : Nat} (ha : ch.armedUntilTick = some a) :
    ch.Inv now clk ↔ ch.phase = .counting ∧ ch.Loaded ∧ (ch.mode.levelGated = true → ch.gate = true) ∧
      a ≤ now + ch.mostPeriods * clk := by
  have harmed : ch.armed = true := by simp [Channel.armed, ha]
  have hpaused : ch.paused = false := by simp [Channel.paused, harmed]
  constructor
  · intro ⟨h1, _, h3, _, h6, h7, _, h9, hc, hrun, _⟩
    have hp := h1 harmed
    exact ⟨hp, ⟨h6 (by simp [hp]), h7 (.inl hp), fun hm => h9 hm hp, hc⟩, h3 harmed, hrun a ha⟩
  · intro ⟨hp, ⟨halves, bcd, square, count⟩, hg, hrun⟩
    refine ⟨fun _ => hp, ?_, fun _ => hg, ?_, fun _ => halves, fun _ => bcd, ?_, fun hm _ => square hm, count, ?_, ?_⟩
      <;> simp [hpaused, hp, ha, hrun]

theorem inv_iff_of_paused (hp : ch.phase = .counting) (ha : ch.armedUntilTick = none) :
    ch.Inv now clk ↔ ch.Loaded ∧ ch.mode.levelGated = true ∧ ch.gate = false ∧ 1 ≤ ch.currentCount ∧
      (ch.mode = .m3 → ch.outputLevel = true → eff ch / 2 < ch.currentCount) ∧
      (ch.mode = .m3 → ch.currentCount ≤ if ch.outputLevel then eff ch else eff ch / 2) := by
  have harmed : ch.armed = false := by simp [Channel.armed, ha]
  have hpaused : ch.paused = true := by simp [Channel.paused, harmed, hp]
  constructor
  · intro ⟨_, h2, _, _, h6, h7, h8, h9, hc, _, hrun⟩
    obtain ⟨hl, hg⟩ := h2 hpaused
    obtain ⟨hpos, _, hhigh⟩ := h8 hpaused
    exact ⟨⟨h6 (by simp [hp]), h7 (.inl hp), fun hm => h9 hm hp, hc⟩, hl, hg, hpos, hhigh, hrun hpaused⟩
  · intro ⟨⟨halves, bcd, square, count⟩, hl, hg, hpos, hhigh, hrun⟩
    refine ⟨?_, fun _ => ⟨hl, hg⟩, ?_, ?_, fun _ => halves, fun _ => bcd, fun _ => ⟨hpos, count, hhigh⟩,
      fun hm _ => square hm, count, ?_, fun _ => hrun⟩ <;> simp [harmed, hp, ha]

theorem inv_of_unprogrammed (hp : ch.phase = .unprogrammed) (ha : ch.armedUntilTick = none)
    (hl : ch.latched = false) (hs : ch.statusLatched = false) (hc : ch.CountBound) : ch.Inv now clk :=
  (inv_iff_of_not_counting (by simp [hp])).2 ⟨ha, fun _ => ⟨by simp [Channel.armed, ha], hl, hs⟩, fun h => absurd hp h,
    by simp [Channel.I7, hp], hc⟩

theorem inv_of_awaitingReload (hp : ch.phase = .awaitingReload) (ha : ch.armedUntilTick = none)
    (h6 : ch.I6) (hc : ch.CountBound) : ch.Inv now clk :=
  (inv_iff_of_not_counting (by simp [hp])).2 ⟨ha, by simp [Channel.I5, hp], h6, by simp [Channel.I7, hp], hc⟩

theorem inv_of_halted (hp : ch.phase = .halted) (ha : ch.armedUntilTick = none) (h6 : ch.I6) (h7 : ch.I7)
    (hc : ch.CountBound) : ch.Inv now clk :=
  (inv_iff_of_not_counting (by simp [hp])).2 ⟨ha, by simp [Channel.I5, hp], h6, h7, hc⟩

/-- The bound on an event is the only part that speaks of the tick, and time only loosens it. -/
theorem Channel.Inv.mono {now' : Nat} (h : ch.Inv now clk) (hle : now ≤ now') : ch.Inv now' clk := by
  obtain ⟨h1, h2, h3, h5, h6, h7, h8, h9, hc, hrun, hpaused⟩ := h
  exact ⟨h1, h2, h3, h5, h6, h7, h8, h9, hc, fun a ha => (hrun a ha).trans (by omega), hpaused⟩

/-! ## Reads and latches -/

/-- (I5) and (I6) are the only invariants that speak of the read half and the two latches. -/
theorem Channel.Inv.withLatches (h : ch.Inv now clk) (hp : ch.phase ≠ .unprogrammed) {half : Half}
    (hhalf : ch.accessMode ≠ .lowHigh → half = .low) (l : Bool) (v : BitVec 16) (sl : Bool) (sv : Byte) :
    Channel.Inv now clk
      { ch with readHalf := half, latched := l, latchedValue := v, statusLatched := sl, latchedStatus := sv } := by
  obtain ⟨h1, h2, h3, -, h6, h7, h8, h9, hc, hrun⟩ := h
  exact ⟨h1, h2, h3, fun hu => absurd hu hp, fun _ ham => ⟨(h6 hp ham).1, hhalf ham⟩, h7, h8, h9, hc, hrun⟩

theorem Channel.Inv.halves (h : ch.Inv now clk) (hp : ch.phase ≠ .unprogrammed) (ham : ch.accessMode ≠ .lowHigh) :
    ch.writeHalf = .low ∧ ch.readHalf = .low := by
  obtain ⟨-, -, -, -, h6, -⟩ := h
  exact h6 hp ham

theorem Channel.Inv.readHalf (h : ch.Inv now clk) (hp : ch.phase ≠ .unprogrammed) (ham : ch.accessMode ≠ .lowHigh) :
    ch.readHalf = .low :=
  (h.halves hp ham).2

theorem inv_countRead (h : ch.Inv now clk) (hp : ch.phase ≠ .unprogrammed) : (countRead ch).Inv now clk := by
  unfold countRead
  split
  · exact h.withLatches hp (h.readHalf hp) _ _ _ _
  · exact h.withLatches hp (h.readHalf hp) _ _ _ _
  · exact h.withLatches hp (fun ham => absurd ‹_› ham) _ _ _ _
  · exact h.withLatches hp (fun _ => rfl) _ _ _ _

theorem inv_readData (h : ch.Inv now clk) (free : Byte) : (readData now clk free ch).1.Inv now clk := by
  unfold readData
  split
  · exact h
  · split
    · exact h.withLatches ‹_› (h.readHalf ‹_›) _ _ _ _
    · exact inv_countRead h ‹_›

theorem inv_latchCount (h : ch.Inv now clk) : (latchCount now clk ch).Inv now clk := by
  unfold latchCount
  split
  · exact h
  · split
    · exact h
    · exact h.withLatches ‹_› (h.readHalf ‹_›) _ _ _ _

theorem inv_latchStatus (h : ch.Inv now clk) : (latchStatus ch).Inv now clk := by
  unfold latchStatus
  split
  · exact h
  · split
    · exact h
    · exact h.withLatches ‹_› (h.readHalf ‹_›) _ _ _ _

theorem inv_readBack (h : ch.Inv now clk) (nc ns k : Bool) : (readBack nc ns k now clk ch).Inv now clk := by
  have hstatus : (if ns then ch else latchStatus ch).Inv now clk := by
    split
    · exact h
    · exact inv_latchStatus h
  unfold readBack
  split
  · dsimp only
    split
    · exact hstatus
    · exact inv_latchCount hstatus
  · exact h

/-! ## Programs and loads -/

theorem inv_program (am : AccessMode) (m : Mode) (bcd : Bool) {free : Nat} (hfree : free ≤ 65536) (ch : Channel) :
    (program am m bcd free ch).ch.Inv now clk :=
  inv_of_awaitingReload rfl rfl (fun _ _ => ⟨rfl, rfl⟩) hfree

/-- The channel a load leaves (R104), as `loadAndArm_eq` writes it out. -/
def loadedChannel (now clk : Nat) (ch : Channel) : Channel :=
  { ch with
    armedUntilTick :=
      if ch.mode.levelGated && !ch.gate then none else some (now + firstPeriods ch.mode (eff ch) * clk)
    currentCount := eff ch
    nullCount := false
    phase := .counting
    outputLevel := loadedLevel ch }

@[simp] theorem eff_loadedChannel (now clk : Nat) (ch : Channel) : eff (loadedChannel now clk ch) = eff ch := rfl
@[simp] theorem loadedChannel_currentCount (now clk : Nat) (ch : Channel) :
    (loadedChannel now clk ch).currentCount = eff ch := rfl
theorem loadedChannel_outputLevel_of_m3 (hm : ch.mode = .m3) : (loadedChannel now clk ch).outputLevel = true := by
  simp [loadedChannel, loadedLevel, hm]

theorem loadedChannel_disarmed (hl : ch.mode.levelGated = true) (hg : ch.gate = false) :
    (loadedChannel now clk ch).armedUntilTick = none := by
  simp [loadedChannel, hl, hg]

theorem loadedChannel_armed (hg : ch.mode.levelGated = true → ch.gate = true) :
    (loadedChannel now clk ch).armedUntilTick = some (now + firstPeriods ch.mode (eff ch) * clk) := by
  cases hl : ch.mode.levelGated
  · simp [loadedChannel, hl]
  · simp [loadedChannel, hl, hg hl]

theorem loadAndArm_ok {d : Drive} (h : loadAndArm now clk ch = .ok d) :
    (ch.mode = .m3 → 2 ≤ eff ch) ∧ d.ch = loadedChannel now clk ch := by
  by_cases hone : ch.mode = .m3 ∧ eff ch = 1
  · rw [loadAndArm_refused hone] at h
    cases h
  · rw [loadAndArm_eq now clk ch hone] at h
    injection h with h
    subst h
    refine ⟨fun hm => ?_, rfl⟩
    have := eff_pos ch
    have : eff ch ≠ 1 := fun h1 => hone ⟨hm, h1⟩
    omega

/-- A load arms no further off than the run it starts, the output of mode 3 being high (R104). -/
theorem firstPeriods_le_mostPeriods (now clk : Nat) (ch : Channel) :
    firstPeriods ch.mode (eff ch) ≤ (loadedChannel now clk ch).mostPeriods := by
  have hle := eff_le ch
  by_cases hm : ch.mode = .m3
  · rw [mostPeriods_high (ch := loadedChannel now clk ch) hm (loadedChannel_outputLevel_of_m3 hm), eff_loadedChannel]
    simp [firstPeriods, hm]
  · rw [mostPeriods_other (ch := loadedChannel now clk ch) hm]
    unfold firstPeriods
    split <;> omega

theorem inv_loadAndArm {d : Drive} (h : loadAndArm now clk ch = .ok d)
    (halves : ch.accessMode ≠ .lowHigh → ch.writeHalf = .low ∧ ch.readHalf = .low)
    (bcd : ch.countFormat = .bcd → ch.countRegister.toNat ≤ 9999) : d.ch.Inv now clk := by
  obtain ⟨hsquare, hd⟩ := loadAndArm_ok h
  rw [hd]
  have hpos := eff_pos ch
  have hloaded : (loadedChannel now clk ch).Loaded := ⟨halves, bcd, hsquare, eff_le ch⟩
  by_cases hpaused : ch.mode.levelGated = true ∧ ch.gate = false
  · obtain ⟨hl, hg⟩ := hpaused
    refine (inv_iff_of_paused rfl (loadedChannel_disarmed hl hg)).2 ⟨hloaded, hl, hg, hpos, fun _ _ => ?_, fun hm => ?_⟩
    · simp only [eff_loadedChannel, loadedChannel_currentCount]
      omega
    · rw [loadedChannel_outputLevel_of_m3 (ch := ch) hm]
      exact le_rfl
  · have hgate : ch.mode.levelGated = true → ch.gate = true := by
      intro hl
      simpa [hl] using hpaused
    refine (inv_iff_of_armed (loadedChannel_armed hgate)).2 ⟨rfl, hloaded, hgate, ?_⟩
    exact Nat.add_le_add_left (Nat.mul_le_mul_right _ (firstPeriods_le_mostPeriods now clk ch)) _

/-- In the modes that wait for the gate a count write leaves the run alone: what it writes, only (I7) speaks of. -/
theorem Channel.Inv.withReload (h : ch.Inv now clk) (hm : ch.mode ≠ .m3) {raw : BitVec 16}
    (hraw : ch.countFormat = .bcd → raw.toNat ≤ 9999) (n : Bool) :
    Channel.Inv now clk { ch with countRegister := raw, nullCount := n } := by
  obtain ⟨h1, h2, h3, h5, h6, -, h8, -, hc, hrun, -⟩ := h
  refine ⟨h1, h2, h3, h5, h6, fun _ => hraw, fun hp => ?_, fun h => absurd h hm, hc, ?_, fun _ h => absurd h hm⟩
  · obtain ⟨hpos, hle, -⟩ := h8 hp
    exact ⟨hpos, hle, fun h => absurd h hm⟩
  · rw [mostPeriods_other hm] at hrun
    rw [mostPeriods_other (ch := { ch with countRegister := raw, nullCount := n }) hm]
    exact hrun

theorem Channel.Inv.halt (h : ch.Inv now clk) (hp : ch.phase = .awaitingReload)
    (bcd : ch.countFormat = .bcd → ch.countRegister.toNat ≤ 9999) :
    Channel.Inv now clk { ch with phase := .halted } := by
  obtain ⟨ha, -, h6, -, hc⟩ := (inv_iff_of_not_counting (by simp [hp])).1 h
  exact inv_of_halted rfl ha (fun _ => h6 (by simp [hp])) (fun _ => bcd) hc

theorem countWritten_waits (hm : ch.mode = .m1 ∨ ch.mode = .m5) (raw : BitVec 16) :
    countWritten now clk raw ch =
      let written := { ch with countRegister := countOf ch.countFormat raw, nullCount := true }
      .ok { ch := if ch.phase = .awaitingReload then { written with phase := .halted } else written, calls := [] } := by
  obtain hm | hm := hm <;> simp only [countWritten, hm]

theorem countWritten_loads (hm : ¬(ch.mode = .m1 ∨ ch.mode = .m5)) (raw : BitVec 16) :
    countWritten now clk raw ch =
      loadAndArm now clk { ch with countRegister := countOf ch.countFormat raw, nullCount := true } := by
  unfold countWritten
  cases h : ch.mode <;> simp [h] at hm ⊢

theorem inv_countWritten {d : Drive} {raw : BitVec 16} (h : countWritten now clk raw ch = .ok d)
    (hinv : ch.Inv now clk) (hp : ch.phase ≠ .unprogrammed) : d.ch.Inv now clk := by
  have hraw : ch.countFormat = .bcd → (countOf ch.countFormat raw).toNat ≤ 9999 := by
    intro hf
    rw [hf]
    exact countOf_bcd_le raw
  by_cases hm : ch.mode = .m1 ∨ ch.mode = .m5
  · rw [countWritten_waits hm] at h
    injection h with h
    have hwritten := hinv.withReload (by rintro hm3; simp [hm3] at hm) hraw true
    subst h
    dsimp only
    split
    · exact hwritten.halt ‹_› hraw
    · exact hwritten
  · rw [countWritten_loads hm] at h
    exact inv_loadAndArm h (hinv.halves hp) hraw

/-- (I6) is the only invariant that speaks of the write half. -/
theorem Channel.Inv.withWriteHalf (h : ch.Inv now clk) (ham : ch.accessMode = .lowHigh) (half : Half) (low : Byte) :
    Channel.Inv now clk { ch with writeHalf := half, writeLow := low } := by
  obtain ⟨h1, h2, h3, h5, -, h7, h8, h9, hc, hrun⟩ := h
  exact ⟨h1, h2, h3, h5, fun _ hne => absurd ham hne, h7, h8, h9, hc, hrun⟩

theorem inv_writeData {d : Drive} {byte : Byte} (h : writeData now clk byte ch = .ok d) (hinv : ch.Inv now clk) :
    d.ch.Inv now clk := by
  unfold writeData at h
  split at h
  · injection h with h
    subst h
    exact hinv
  · split at h
    · exact inv_countWritten h hinv ‹_›
    · exact inv_countWritten h hinv ‹_›
    · injection h with h
      subst h
      exact hinv.withWriteHalf ‹_› _ _
    · exact inv_countWritten h (hinv.withWriteHalf ‹_› _ _) ‹_›

/-! ## Expiry -/

theorem expiry_cases {a : Nat} {d : Drive} (h : expiry a clk ch = .ok d) :
    (ch.mode ≠ .m2 ∧ ch.mode ≠ .m3 ∧
        d.ch = { ch with currentCount := 0, outputLevel := true, phase := .halted, armedUntilTick := none }) ∨
      (ch.mode = .m2 ∧
        d.ch = { ch with outputLevel := true, currentCount := eff ch, armedUntilTick := some (a + eff ch * clk) }) ∨
      (ch.mode = .m3 ∧
        d.ch =
          { ch with
            outputLevel := !ch.outputLevel
            currentCount := if ch.outputLevel then eff ch / 2 else eff ch
            armedUntilTick := some (a + (if ch.outputLevel then eff ch / 2 else (eff ch + 1) / 2) * clk) }) := by
  unfold expiry at h
  split at h
  case h_3 hm =>
    rw [expiryMode2_eq] at h
    injection h with h
    exact .inr (.inl ⟨hm, by rw [← h]⟩)
  case h_4 hm =>
    rw [expiryMode3_eq] at h
    injection h with h
    exact .inr (.inr ⟨hm, by rw [← h]⟩)
  all_goals
    rename_i hm
    injection h with h
    exact .inl ⟨by simp [hm], by simp [hm], by rw [← h]; rfl⟩

/-- An armed channel armed again, its output and count rewritten: the new event must lie within the new run. -/
theorem Channel.Inv.rearm {a b a' n : Nat} {out : Bool} (hinv : ch.Inv now clk) (hb : ch.armedUntilTick = some b)
    (hn : n ≤ 65536) (ha' : a' ≤ a + Channel.mostPeriods { ch with outputLevel := out } * clk) :
    Channel.Inv a clk { ch with outputLevel := out, currentCount := n, armedUntilTick := some a' } := by
  obtain ⟨hp, ⟨halves, bcd, square, -⟩, hg, -⟩ := (inv_iff_of_armed hb).1 hinv
  exact (inv_iff_of_armed rfl).2 ⟨hp, ⟨halves, bcd, square, hn⟩, hg, ha'⟩

theorem inv_expiry {a b : Nat} {d : Drive} (h : expiry a clk ch = .ok d) (hb : ch.armedUntilTick = some b)
    (hinv : ch.Inv now clk) : d.ch.Inv a clk := by
  obtain ⟨-, -, hd⟩ | ⟨hm, hd⟩ | ⟨hm, hd⟩ := expiry_cases h <;> rw [hd]
  · obtain ⟨-, ⟨halves, bcd, -, -⟩, -, -⟩ := (inv_iff_of_armed hb).1 hinv
    exact inv_of_halted rfl rfl (fun _ => halves) (fun _ => bcd) (Nat.zero_le _)
  · refine hinv.rearm hb (eff_le ch) ?_
    rw [mostPeriods_other (by simp [hm])]
    exact Nat.add_le_add_left (Nat.mul_le_mul_right _ (eff_le ch)) _
  · have hle := eff_le ch
    cases ho : ch.outputLevel
    · refine hinv.rearm hb hle ?_
      rw [mostPeriods_high (by simp [hm]) rfl]
      exact le_rfl
    · refine hinv.rearm hb (by simp; omega) ?_
      rw [mostPeriods_low (by simp [hm]) rfl]
      exact le_rfl

/-! ## Gate -/

/-- A rise resumes a paused channel, the halves of mode 3 apart, and leaves any other (R172). -/
theorem gateRise_cases {d : Drive} (h : gateRise now clk ch = .ok d) :
    (ch.paused = true ∧
        d.ch = { ch with armedUntilTick := some (now + (ch.currentCount - lowHalfToCome ch) * clk) }) ∨
      (ch.paused = false ∧ d.ch = ch) := by
  unfold gateRise at h
  split at h
  · rename_i hpaused
    have ha : ch.armedUntilTick = none := by
      simp only [Channel.paused, Channel.armed, Bool.and_eq_true] at hpaused
      simpa using hpaused.2
    rw [schedule_of_disarmed ha] at h
    injection h with h
    exact .inl ⟨hpaused, by rw [← h]⟩
  · rename_i hpaused
    injection h with h
    exact .inr ⟨by simpa using hpaused, by rw [← h]⟩

/-- A fall pauses an armed channel at its live count, and leaves any other (R171). -/
theorem gateFall_cases (now clk : Nat) (ch : Channel) :
    (ch.armed = true ∧ (gateFall now clk ch).ch = { ch with currentCount := live now clk ch, armedUntilTick := none }) ∨
      (ch.armed = false ∧ (gateFall now clk ch).ch = ch) := by
  unfold gateFall
  cases h : ch.armed
  · exact .inr ⟨rfl, rfl⟩
  · exact .inl ⟨rfl, rfl⟩

/-- Everything a gate change can leave, with the condition of each way (R170 to R173). -/
theorem setGate_outcomes {level : Bool} {d : Drive} (h : setGate now clk level ch = .ok d) :
    (d.ch = { ch with gate := level } ∧
        (ch.phase = .counting → ch.mode.levelGated = true → ch.gate ≠ level → ch.armed = level)) ∨
      (ch.mode.levelGated = true ∧ ch.armed = true ∧
        d.ch = { ch with gate := false, currentCount := live now clk ch, armedUntilTick := none }) ∨
      (ch.mode.levelGated = true ∧ ch.paused = true ∧
        d.ch =
          { ch with
            gate := true
            armedUntilTick := some (now + (ch.currentCount - lowHalfToCome ch) * clk) }) ∨
      ((ch.phase = .counting ∨ ch.phase = .halted) ∧ loadAndArm now clk { ch with gate := true } = .ok d) := by
  simp only [setGate] at h
  split at h
  · rename_i hstored
    injection h with h
    subst h
    refine .inl ⟨rfl, fun hp _ hne => ?_⟩
    simp [hp, hne] at hstored
  · rename_i hedge
    obtain ⟨hunprogrammed, hawaiting, -⟩ : ch.phase ≠ .unprogrammed ∧ ch.phase ≠ .awaitingReload ∧ ch.gate ≠ level := by
      simpa only [not_or] using hedge
    split at h
    · rename_i hl
      cases level
      · rw [if_neg Bool.false_ne_true] at h
        injection h with h
        subst h
        obtain ⟨harmed, hfall⟩ | ⟨harmed, hfall⟩ := gateFall_cases now clk { ch with gate := false }
        · exact .inr (.inl ⟨hl, harmed, hfall⟩)
        · exact .inl ⟨hfall, fun _ _ _ => harmed⟩
      · rw [if_pos rfl] at h
        obtain ⟨hpaused, hrise⟩ | ⟨hpaused, hrise⟩ := gateRise_cases h
        · exact .inr (.inr (.inl ⟨hl, hpaused, hrise⟩))
        · refine .inl ⟨hrise, fun hp _ _ => ?_⟩
          have hpaused : ch.paused = false := hpaused
          simpa [Channel.paused, hp] using hpaused
    · rename_i hl
      cases level
      · rw [if_neg Bool.false_ne_true] at h
        injection h with h
        subst h
        exact .inl ⟨rfl, fun _ hl' => absurd hl' hl⟩
      · rw [if_pos rfl] at h
        refine .inr (.inr (.inr ⟨?_, h⟩))
        cases hp : ch.phase <;> simp_all

/-- Only (I2) and (I3) speak of the gate, and only of a channel that counts in a level-gated mode. -/
theorem Channel.Inv.withGate {level : Bool} (h : ch.Inv now clk)
    (hlevel : ch.phase = .counting → ch.mode.levelGated = true → ch.gate ≠ level → ch.armed = level) :
    Channel.Inv now clk { ch with gate := level } := by
  obtain ⟨h1, h2, h3, h5, h6, h7, h8, h9, hc, hrun⟩ := h
  refine ⟨h1, fun hpaused => ?_, fun harmed hl => ?_, h5, h6, h7, h8, h9, hc, hrun⟩
  · have hpaused : ch.paused = true := hpaused
    obtain ⟨hl, hg⟩ := h2 hpaused
    refine ⟨hl, ?_⟩
    simp only [Channel.paused, Bool.and_eq_true, beq_iff_eq, Bool.not_eq_true'] at hpaused
    obtain ⟨hp, harmed⟩ := hpaused
    have := hlevel hp hl
    cases level <;> simp_all
  · have hg := h3 harmed hl
    have := hlevel (h1 harmed) hl
    have harmed : ch.armed = true := harmed
    cases level <;> simp_all

theorem lowHalfToCome_high (hm : ch.mode = .m3) (ho : ch.outputLevel = true) : lowHalfToCome ch = eff ch / 2 := by
  simp [lowHalfToCome, hm, ho]

theorem lowHalfToCome_low (ho : ch.outputLevel = false) : lowHalfToCome ch = 0 := by
  unfold lowHalfToCome
  split <;> simp_all

theorem lowHalfToCome_other (hm : ch.mode ≠ .m3) : lowHalfToCome ch = 0 := by
  unfold lowHalfToCome
  split <;> simp_all

/-- The live count of a run that is not over: at least the low half to come and one period (R130). -/
theorem live_bounds {a : Nat} (h : ch.Inv now clk) (ha : ch.armedUntilTick = some a) (hnow : now < a) (hclk : 1 ≤ clk) :
    1 ≤ live now clk ch ∧ live now clk ch ≤ 65536 ∧
      (ch.mode = .m3 → ch.outputLevel = true → eff ch / 2 < live now clk ch) ∧
      (ch.mode = .m3 → live now clk ch ≤ if ch.outputLevel then eff ch else eff ch / 2) := by
  obtain ⟨-, -, -, hrun⟩ := (inv_iff_of_armed ha).1 h
  have hlive : live now clk ch = ceilDiv (a - now) clk + lowHalfToCome ch := by simp [live, ha]
  have hpos : 1 ≤ ceilDiv (a - now) clk := ceilDiv_pos (by omega) hclk
  have hmost : ceilDiv (a - now) clk ≤ ch.mostPeriods := ceilDiv_le (by omega) hclk
  have heff := eff_le ch
  by_cases hm : ch.mode = .m3
  · cases ho : ch.outputLevel
    · rw [mostPeriods_low hm ho] at hmost
      rw [lowHalfToCome_low ho] at hlive
      refine ⟨by omega, by omega, fun _ h => absurd h Bool.false_ne_true, fun _ => ?_⟩
      rw [if_neg Bool.false_ne_true]
      omega
    · rw [mostPeriods_high hm ho] at hmost
      rw [lowHalfToCome_high hm ho] at hlive
      refine ⟨by omega, by omega, fun _ _ => by omega, fun _ => ?_⟩
      rw [if_pos rfl]
      omega
  · rw [mostPeriods_other hm] at hmost
    rw [lowHalfToCome_other hm] at hlive
    exact ⟨by omega, by omega, fun h => absurd h hm, fun h => absurd h hm⟩

/-- R171: a fall pauses at a count that resumes where the run stood. -/
theorem Channel.Inv.pause {a : Nat} (h : ch.Inv now clk) (hl : ch.mode.levelGated = true)
    (ha : ch.armedUntilTick = some a) (hnow : now < a) (hclk : 1 ≤ clk) :
    Channel.Inv now clk { ch with gate := false, currentCount := live now clk ch, armedUntilTick := none } := by
  obtain ⟨hp, ⟨halves, bcd, square, -⟩, -, -⟩ := (inv_iff_of_armed ha).1 h
  obtain ⟨hpos, hle, hhigh, hmost⟩ := live_bounds h ha hnow hclk
  refine (inv_iff_of_paused ?_ rfl).2 ⟨⟨halves, bcd, square, hle⟩, hl, rfl, hpos, hhigh, hmost⟩
  exact hp

/-- R172: a rise arms within the run that was paused. -/
theorem Channel.Inv.resume (h : ch.Inv now clk) (hpaused : ch.paused = true) :
    Channel.Inv now clk
      { ch with gate := true, armedUntilTick := some (now + (ch.currentCount - lowHalfToCome ch) * clk) } := by
  obtain ⟨hp, ha⟩ : ch.phase = .counting ∧ ch.armedUntilTick = none := by
    simpa [Channel.paused, Channel.armed] using hpaused
  obtain ⟨hloaded, -, -, -, -, hmost⟩ := (inv_iff_of_paused hp ha).1 h
  obtain ⟨halves, bcd, square, count⟩ := hloaded
  have hperiods : ch.currentCount - lowHalfToCome ch ≤ ch.mostPeriods := by
    by_cases hm : ch.mode = .m3
    · have hmost := hmost hm
      cases ho : ch.outputLevel <;> rw [ho] at hmost
      · rw [mostPeriods_low hm ho]
        exact (Nat.sub_le _ _).trans hmost
      · rw [mostPeriods_high hm ho, lowHalfToCome_high hm ho]
        have hmost : ch.currentCount ≤ eff ch := hmost
        omega
    · rw [mostPeriods_other hm]
      omega
  exact (inv_iff_of_armed rfl).2 ⟨hp, ⟨halves, bcd, square, count⟩, fun _ => rfl,
    Nat.add_le_add_left (Nat.mul_le_mul_right _ hperiods) _⟩

theorem inv_setGate {level : Bool} {d : Drive} (h : setGate now clk level ch = .ok d) (hinv : ch.Inv now clk)
    (hdue : ∀ a ∈ ch.armedUntilTick, now < a) (hclk : 1 ≤ clk) : d.ch.Inv now clk := by
  obtain ⟨hd, hlevel⟩ | ⟨hl, harmed, hd⟩ | ⟨-, hpaused, hd⟩ | ⟨hp, hload⟩ := setGate_outcomes h
  · rw [hd]
    exact hinv.withGate hlevel
  · obtain ⟨a, ha⟩ := Option.isSome_iff_exists.1 harmed
    rw [hd]
    exact hinv.pause hl ha (hdue a ha) hclk
  · rw [hd]
    exact hinv.resume hpaused
  · obtain ⟨-, -, -, -, h6, h7, -⟩ := hinv
    exact inv_loadAndArm hload (h6 (by obtain hp | hp := hp <;> simp [hp])) (h7 hp)

end Sys2Proof.Machine
end

section
/-! SUPPORT. What a step makes of each channel, and the invariants of the device (spec/10_state.md R42): every step
keeps them, a saved list restores channels that keep them, and no event is armed before now. -/

namespace Sys2Proof.Machine

/-! ## One channel under an access -/

/-- What an access makes of one channel, its record before and after (R182). -/
inductive AccessEffect (now clk : Nat) (ch : Channel) : Channel → Prop
  | untouched : AccessEffect now clk ch ch
  | read (free : Byte) : AccessEffect now clk ch (readData now clk free ch).1
  | write {byte : Byte} {d : Drive} (h : writeData now clk byte ch = .ok d) : AccessEffect now clk ch d.ch
  | latch : AccessEffect now clk ch (latchCount now clk ch)
  | readBack (nc ns k : Bool) : AccessEffect now clk ch (readBack nc ns k now clk ch)
  | program (am : AccessMode) (m : Mode) (bcd : Bool) (free : Fin 65537) :
      AccessEffect now clk ch (program am m bcd free.val ch).ch

/-- An effect on channel `c` alone, seen from every channel. -/
theorem accessEffect_of_chan {c c' : ChanId} {x : Channel} {s t : State}
    (h : t.chan c' = if c' = c then x else s.chan c')
    (hx : AccessEffect s.now (s.params.clkPeriod c) (s.chan c) x) :
    AccessEffect s.now (s.params.clkPeriod c') (s.chan c') (t.chan c') := by
  rw [h]
  split
  · subst c'
    exact hx
  · exact .untouched

theorem exec_accessEffect {i : Instr} {s t : State} (h : exec i s = .next t) (c' : ChanId) :
    AccessEffect s.now (s.params.clkPeriod c') (s.chan c') (t.chan c') := by
  obtain ⟨c, hi⟩ | hi | ⟨c, d, hi⟩ | ⟨c, hi⟩ | ⟨c, am, m, bcd, hi⟩ | ⟨nc, ns, k2, k1, k0, hi⟩ | hi := exec_shape i s <;>
    rw [hi] at h
  · exact accessEffect_of_chan (busRead_chan h c') (.read _)
  · rw [execRdCtl_chan h]
    exact .untouched
  · obtain ⟨x, hx, hchan⟩ := busWrite_chan h
    exact accessEffect_of_chan (hchan c') (.write hx)
  · exact accessEffect_of_chan (busLatch_chan h c') .latch
  · exact accessEffect_of_chan (busProgram_chan h c') (.program _ _ _ _)
  · rw [execRdbk_chan h]
    exact .readBack _ _ _
  · rw [reservedWrite_chan h]
    exact .untouched

theorem AccessEffect.inv {now clk : Nat} {ch ch' : Channel} (h : AccessEffect now clk ch ch') (hinv : ch.Inv now clk) :
    ch'.Inv now clk := by
  cases h with
  | untouched => exact hinv
  | read free => exact inv_readData hinv free
  | write h => exact inv_writeData h hinv
  | latch => exact inv_latchCount hinv
  | readBack nc ns k => exact inv_readBack hinv nc ns k
  | program am m bcd free => exact inv_program am m bcd (Nat.le_of_lt_succ free.isLt) ch

/-! ## Events not before now -/

/-- The channel has no event armed before `now`. -/
def Channel.NotStale (now : Nat) (ch : Channel) : Prop := ∀ a ∈ ch.armedUntilTick, now ≤ a

theorem notStale_of_armed {now a : Nat} {ch : Channel} (ha : ch.armedUntilTick = some a) (hle : now ≤ a) :
    ch.NotStale now := by
  intro b hb
  rw [ha, Option.mem_some_iff] at hb
  omega

theorem notStale_of_disarmed {now : Nat} {ch : Channel} (ha : ch.armedUntilTick = none) : ch.NotStale now := by
  intro b hb
  simp [ha] at hb

section

variable {now clk : Nat} {ch : Channel}

theorem notStale_loadAndArm {d : Drive} (h : loadAndArm now clk ch = .ok d) : d.ch.NotStale now := by
  obtain ⟨-, hd⟩ := loadAndArm_ok h
  rw [hd]
  by_cases hpaused : ch.mode.levelGated = true ∧ ch.gate = false
  · exact notStale_of_disarmed (loadedChannel_disarmed hpaused.1 hpaused.2)
  · exact notStale_of_armed (loadedChannel_armed fun hl => by simpa [hl] using hpaused) (Nat.le_add_right _ _)

theorem notStale_countWritten {d : Drive} {raw : BitVec 16} (h : countWritten now clk raw ch = .ok d)
    (hs : ch.NotStale now) : d.ch.NotStale now := by
  by_cases hm : ch.mode = .m1 ∨ ch.mode = .m5
  · rw [countWritten_waits hm] at h
    injection h with h
    subst h
    dsimp only
    split <;> exact hs
  · rw [countWritten_loads hm] at h
    exact notStale_loadAndArm h

theorem notStale_writeData {d : Drive} {byte : Byte} (h : writeData now clk byte ch = .ok d) (hs : ch.NotStale now) :
    d.ch.NotStale now := by
  unfold writeData at h
  split at h
  · injection h with h
    subst h
    exact hs
  · split at h
    · exact notStale_countWritten h hs
    · exact notStale_countWritten h hs
    · injection h with h
      subst h
      exact hs
    · exact notStale_countWritten h hs

theorem AccessEffect.notStale {ch' : Channel} (h : AccessEffect now clk ch ch') (hs : ch.NotStale now) :
    ch'.NotStale now := by
  cases h with
  | untouched => exact hs
  | read free =>
    obtain ⟨_, _, _, h⟩ := readData_frame now clk free ch
    rw [h]
    exact hs
  | write h => exact notStale_writeData h hs
  | latch =>
    obtain ⟨_, _, h⟩ := latchCount_frame now clk ch
    rw [h]
    exact hs
  | readBack nc ns k =>
    obtain ⟨_, _, _, _, h⟩ := readBack_frame nc ns k now clk ch
    rw [h]
    exact hs
  | program am m bcd free => exact notStale_of_disarmed rfl

theorem notStale_expiry {a : Nat} {d : Drive} (h : expiry a clk ch = .ok d) : d.ch.NotStale a := by
  obtain ⟨-, -, hd⟩ | ⟨-, hd⟩ | ⟨-, hd⟩ := expiry_cases h <;> rw [hd]
  · exact notStale_of_disarmed rfl
  · exact notStale_of_armed rfl (Nat.le_add_right _ _)
  · exact notStale_of_armed rfl (Nat.le_add_right _ _)

theorem notStale_setGate {level : Bool} {d : Drive} (h : setGate now clk level ch = .ok d) (hs : ch.NotStale now) :
    d.ch.NotStale now := by
  obtain ⟨hd, -⟩ | ⟨-, -, hd⟩ | ⟨-, -, hd⟩ | ⟨-, hload⟩ := setGate_outcomes h
  · rw [hd]
    exact hs
  · rw [hd]
    exact notStale_of_disarmed rfl
  · rw [hd]
    exact notStale_of_armed rfl (Nat.le_add_right _ _)
  · exact notStale_loadAndArm hload

end

/-! ## The earliest event -/

theorem exists_earlier_le {x y : Option (Nat × ChanId)} {q : Nat × ChanId} (h : q ∈ x ∨ q ∈ y) :
    ∃ p ∈ earlier x y, p.1 ≤ q.1 := by
  unfold earlier
  split
  · exact ⟨q, by simpa using h, le_rfl⟩
  · exact ⟨q, by simpa using h, le_rfl⟩
  · rename_i p r
    simp only [Option.mem_some_iff] at h
    split
    · refine ⟨p, rfl, ?_⟩
      obtain rfl | rfl := h <;> omega
    · refine ⟨r, rfl, ?_⟩
      obtain rfl | rfl := h <;> omega

/-- R150: the event fired next is the earliest one armed. -/
theorem nextDue_le {t a : Nat} {c : ChanId} {s : State} (h : nextDue t s = some (a, c)) (c' : ChanId) :
    ∀ a' ∈ (s.chan c').armedUntilTick, a ≤ a' := by
  intro a' ha'
  have hat := (nextDue_some h).2
  by_cases hle : a' ≤ t
  · have hdue : (a', c') ∈ dueBy t c' s := by
      rw [Option.mem_def] at ha'
      simp [dueBy, ha', hle]
    obtain ⟨p, hp, hpa⟩ : ∃ p ∈ nextDue t s, p.1 ≤ a' := by
      cases c' with
      | c0 => exact exists_earlier_le (.inl hdue)
      | c1 =>
        obtain ⟨r, hr, hra⟩ := exists_earlier_le (.inl hdue)
        obtain ⟨p, hp, hpr⟩ := exists_earlier_le (.inr hr)
        exact ⟨p, hp, hpr.trans hra⟩
      | c2 =>
        obtain ⟨r, hr, hra⟩ := exists_earlier_le (.inr hdue)
        obtain ⟨p, hp, hpr⟩ := exists_earlier_le (.inr hr)
        exact ⟨p, hp, hpr.trans hra⟩
    rw [h, Option.mem_some_iff] at hp
    subst hp
    exact hpa
  · omega

/-! ## One channel under a step -/

/-- What a step makes of one channel, and what it may rely on: time passes no armed event, an expiry is at the tick of
its event, and a bus access or a gate change finds nothing due (R69, R150). -/
inductive StepEffect (s t : State) (c : ChanId) : Prop
  | untouched (hnow : s.now ≤ t.now) (hdue : t.now = s.now ∨ ∀ a ∈ (s.chan c).armedUntilTick, t.now ≤ a)
      (hchan : t.chan c = s.chan c)
  | expired {d : Drive} (hnow : s.now ≤ t.now) (harmed : (s.chan c).armedUntilTick = some t.now)
      (hd : expiry t.now (s.params.clkPeriod c) (s.chan c) = .ok d) (hchan : t.chan c = d.ch)
  | accessed (hnow : t.now = s.now) (heffect : AccessEffect s.now (s.params.clkPeriod c) (s.chan c) (t.chan c))
  | gated {level : Bool} {d : Drive} (hnow : t.now = s.now) (hdue : ∀ a ∈ (s.chan c).armedUntilTick, s.now < a)
      (hd : setGate s.now (s.params.clkPeriod c) level (s.chan c) = .ok d) (hchan : t.chan c = d.ch)
  | restored {entries : List Entry} {rest : List Input} (hnow : t.now = s.now)
      (hpending : s.pending = .restore entries :: rest) (hlist : firstBadEntry 1 entryOrder entries = none)
      (hchan : t.chan c = restoredChannel c entries)

theorem takeFatal_chan {code : FatalCode} {s t : State} (h : takeFatal code s = .next t) :
    t.now = s.now ∧ t.pending = s.pending ∧ ∀ c, t.chan c = s.chan c := by
  injection h with h
  subst h
  exact ⟨rfl, rfl, fun c => by cases c <;> rfl⟩

theorem expired_chan (a : Nat) (c c' : ChanId) (d : Drive) (s : State) :
    (expired a c d s).chan c' = if c' = c then d.ch else s.chan c' := by
  rw [expired, notify_chan, chan_setChan]
  cases c' <;> rfl

@[simp] theorem expired_now (a : Nat) (c : ChanId) (d : Drive) (s : State) : (expired a c d s).now = a := by
  simp [expired]

@[simp] theorem expired_pending (a : Nat) (c : ChanId) (d : Drive) (s : State) :
    (expired a c d s).pending = s.pending := by
  simp [expired]

theorem ioAccess_effect {tr : Transaction} {s t : State} (h : ioAccess tr s = .next t) :
    t.now = s.now ∧ t.pending = s.pending ∧
      ∀ c, AccessEffect s.now (s.params.clkPeriod c) (s.chan c) (t.chan c) := by
  unfold ioAccess at h
  split at h
  · obtain ⟨hnow, hpending, hchan⟩ := takeFatal_chan h
    exact ⟨hnow, hpending, fun c => by rw [hchan]; exact .untouched⟩
  · obtain ⟨_, haccess, -⟩ := exec_access h
    exact ⟨haccess.now, haccess.pending, exec_accessEffect h⟩

theorem gateStep_effect {c : ChanId} {level : Bool} {s t : State} (h : gateStep c level s = .next t) :
    t.now = s.now ∧ t.pending = s.pending ∧
      ∃ d, setGate s.now (s.params.clkPeriod c) level (s.chan c) = .ok d ∧
        ∀ c', t.chan c' = if c' = c then d.ch else s.chan c' := by
  obtain ⟨d, hd, rfl⟩ := gateStep_next h
  exact ⟨by simp, by simp, d, hd, fun c' => by rw [notify_chan, chan_setChan]⟩

theorem restoreStep_effect {entries : List Entry} {s t : State} (h : restoreStep entries s = .next t) :
    t.now = s.now ∧ t.pending = s.pending ∧
      ((∀ c, t.chan c = s.chan c) ∨
        (firstBadEntry 1 entryOrder entries = none ∧ ∀ c, t.chan c = restoredChannel c entries)) := by
  unfold restoreStep at h
  split at h
  · obtain ⟨hnow, hpending, hchan⟩ := takeFatal_chan h
    exact ⟨hnow, hpending, .inl hchan⟩
  · injection h with h
    subst h
    exact ⟨rfl, rfl, .inr ⟨‹_›, fun c => by cases c <;> rfl⟩⟩

theorem startupStep_effect {s t : State} (h : startupStep s = .next t) :
    t.now = s.now ∧ t.pending = s.pending ∧ ∀ c, t.chan c = s.chan c := by
  obtain ⟨-, hs⟩ | ⟨-, c, hs⟩ := startupStep_cases s <;> rw [hs] at h
  · injection h with h
    subst h
    exact ⟨rfl, rfl, fun _ => rfl⟩
  · exact takeFatal_chan h

theorem startupStep_fatal {s t : State} (h : startupStep s = .next t) (hpast : s.hasPast = true) :
    t.fatalCode ≠ none := by
  obtain ⟨hno, -⟩ | ⟨-, c, hs⟩ := startupStep_cases s
  · rw [hno] at hpast
    cases hpast
  · rw [hs] at h
    injection h with h
    subst h
    simp

theorem takesCall_effect {s t : State} (h : TakesCall s t) (c : ChanId) : StepEffect s t c := by
  obtain ⟨u, rest, -, hu, hdue, rfl⟩ | ⟨tr, rest, -, -, ht⟩ | ⟨c', level, rest, -, hdue, ht⟩ | ⟨rest, -, -, ht⟩ |
    ⟨entries, rest, hp, ht⟩ | ⟨rest, -, -, ht⟩ := h
  · exact .untouched hu (.inr fun a ha => (nextDue_none hdue c a ha).le) (by cases c <;> rfl)
  · obtain ⟨hnow, -, heffect⟩ := ioAccess_effect ht
    exact .accessed hnow (by simpa using heffect c)
  · obtain ⟨hnow, -, d, hd, hchan⟩ := gateStep_effect ht
    have hc := hchan c
    split at hc
    · subst c'
      exact .gated hnow (nextDue_none hdue c) (by simpa using hd) hc
    · exact .untouched hnow.ge (.inl hnow) (by simpa using hc)
  · injection ht with ht
    subst ht
    exact .untouched le_rfl (.inl rfl) (by simp)
  · obtain ⟨hnow, -, hchan | ⟨hlist, hchan⟩⟩ := restoreStep_effect ht
    · exact .untouched hnow.ge (.inl hnow) (by simpa using hchan c)
    · exact .restored hnow hp hlist (hchan c)
  · obtain ⟨hnow, -, hchan⟩ := startupStep_effect ht
    exact .untouched hnow.ge (.inl hnow) (by simpa using hchan c)

theorem step_effect {s t : State} (h : step s = .next t) (c : ChanId) : StepEffect s t c := by
  obtain ⟨-, ⟨-, rfl⟩ | ⟨limit, a, c', d, hdue, ha, -, hd, rfl⟩ | htakes⟩ := step_cases h
  · exact .untouched le_rfl (.inl rfl) rfl
  · have hc := expired_chan a c' c d s
    split at hc
    · subst c'
      exact .expired (by simpa using ha) (by simpa using (nextDue_some hdue).1) (by simpa using hd) hc
    · exact .untouched (by simpa using ha) (.inr (by simpa using nextDue_le hdue c)) hc
  · exact takesCall_effect htakes c

theorem takesCall_pending {s t : State} (h : TakesCall s t) : ∃ i, s.pending = i :: t.pending := by
  obtain ⟨u, rest, hp, -, -, rfl⟩ | ⟨tr, rest, hp, -, ht⟩ | ⟨c, level, rest, hp, -, ht⟩ | ⟨rest, hp, -, ht⟩ |
    ⟨entries, rest, hp, ht⟩ | ⟨rest, hp, -, ht⟩ := h
  · exact ⟨_, hp⟩
  · exact ⟨_, by rw [hp, (ioAccess_effect ht).2.1]; rfl⟩
  · exact ⟨_, by rw [hp, (gateStep_effect ht).2.1]; rfl⟩
  · injection ht with ht
    subst ht
    exact ⟨_, hp⟩
  · exact ⟨_, by rw [hp, (restoreStep_effect ht).2.1]; rfl⟩
  · exact ⟨_, by rw [hp, (startupStep_effect ht).2.1]; rfl⟩

/-- A step leaves the pending calls or takes the first of them. -/
theorem step_pending {s t : State} (h : step s = .next t) :
    t.pending = s.pending ∨ TakesCall s t ∧ ∃ i, s.pending = i :: t.pending := by
  obtain ⟨-, ⟨-, rfl⟩ | ⟨limit, a, c, d, -, -, -, -, rfl⟩ | htakes⟩ := step_cases h
  · exact .inl rfl
  · exact .inl (by simp)
  · exact .inr ⟨htakes, takesCall_pending htakes⟩

/-! ## The invariants of the device -/

theorem params_valid_iff {p : Params} : p.Valid ↔ ∀ c, 1 ≤ p.clkPeriod c :=
  ⟨fun ⟨h0, h1, h2⟩ c => by cases c <;> assumption, fun h => ⟨h .c0, h .c1, h .c2⟩⟩

theorem state_inv_iff {s : State} :
    s.Inv ↔ s.params.Valid ∧ (∀ c, (s.chan c).Inv s.now (s.params.clkPeriod c)) ∧ ∀ i ∈ s.pending, i.Sound s := by
  have hchans : (s.ch0.Inv s.now s.params.clkPeriod0 ∧ s.ch1.Inv s.now s.params.clkPeriod1 ∧
      s.ch2.Inv s.now s.params.clkPeriod2) ↔ ∀ c, (s.chan c).Inv s.now (s.params.clkPeriod c) :=
    ⟨fun ⟨h0, h1, h2⟩ c => by cases c <;> assumption, fun h => ⟨h .c0, h .c1, h .c2⟩⟩
  rw [State.Inv, hchans]

theorem sound_restore_iff {s : State} {entries : List Entry} :
    Input.Sound s (.restore entries) ↔
      (firstBadEntry 1 entryOrder entries = none →
        ∀ c, (restoredChannel c entries).Inv s.now (s.params.clkPeriod c)) :=
  forall_congr' fun _ => ⟨fun ⟨h0, h1, h2⟩ c => by cases c <;> assumption, fun h => ⟨h .c0, h .c1, h .c2⟩⟩

theorem Input.Sound.mono {s t : State} {i : Input} (h : i.Sound s) (hnow : s.now ≤ t.now)
    (hparams : t.params = s.params) : i.Sound t := by
  cases i with
  | restore entries =>
    rw [sound_restore_iff] at h ⊢
    intro hlist c
    rw [hparams]
    exact (h hlist c).mono hnow
  | bus | gate | advance | serialize | startup => trivial

theorem StepEffect.now_le {s t : State} {c : ChanId} (h : StepEffect s t c) : s.now ≤ t.now := by
  cases h with
  | untouched hnow | expired hnow => exact hnow
  | accessed hnow | gated hnow | restored hnow => exact hnow.ge

theorem StepEffect.inv {s t : State} {c : ChanId} (h : StepEffect s t c) (hinv : s.Inv) :
    (t.chan c).Inv t.now (s.params.clkPeriod c) := by
  obtain ⟨hvalid, hchan, hsound⟩ := state_inv_iff.1 hinv
  have hinv := hchan c
  cases h with
  | untouched hnow _ hc =>
    rw [hc]
    exact hinv.mono hnow
  | expired _ harmed hd hc =>
    rw [hc]
    exact inv_expiry hd harmed hinv
  | accessed hnow heffect =>
    rw [hnow]
    exact heffect.inv hinv
  | gated hnow hdue hd hc =>
    rw [hnow, hc]
    exact inv_setGate hd hinv hdue (params_valid_iff.1 hvalid c)
  | restored hnow hp hlist hc =>
    rw [hnow, hc]
    exact sound_restore_iff.1 (hsound _ (by rw [hp]; exact List.mem_cons_self)) hlist c

theorem StepEffect.notStale {s t : State} {c : ChanId} (h : StepEffect s t c) (hs : (s.chan c).NotStale s.now)
    (hrestore : ∀ entries rest, s.pending ≠ .restore entries :: rest) : (t.chan c).NotStale t.now := by
  cases h with
  | untouched _ hdue hc =>
    rw [hc]
    obtain hnow | hdue := hdue
    · rw [hnow]
      exact hs
    · exact hdue
  | expired _ _ hd hc =>
    rw [hc]
    exact notStale_expiry hd
  | accessed hnow heffect =>
    rw [hnow]
    exact heffect.notStale hs
  | gated hnow _ hd hc =>
    rw [hnow, hc]
    exact notStale_setGate hd hs
  | restored _ hp => exact absurd hp (hrestore _ _)

theorem restoredChannel_serialize (c : ChanId) (s : State) : restoredChannel c (serialize s) = s.chan c := by
  have h := channelOfValues_encode (s.chan c)
  cases c <;> exact h

theorem inv_atReset {now clk : Nat} {d : Channel} (gate : Bool) (h : d.CountBound) :
    (Channel.atReset gate d).Inv now clk :=
  inv_of_unprogrammed rfl rfl rfl rfl h

theorem inv_resetWith {p : Params} {d0 d1 d2 : Channel} (hp : p.Valid) (h0 : d0.CountBound) (h1 : d1.CountBound)
    (h2 : d2.CountBound) : (State.resetWith p d0 d1 d2).Inv :=
  ⟨hp, ⟨inv_atReset _ h0, inv_atReset _ h1, inv_atReset _ h2⟩, fun _ hi => absurd hi List.not_mem_nil⟩

theorem noStaleEvent_resetWith (p : Params) (d0 d1 d2 : Channel) : (State.resetWith p d0 d1 d2).NoStaleEvent :=
  fun c => notStale_of_disarmed (by cases c <;> rfl)

/-! ## The statements -/

/-- Settles O15: every operation of a channel keeps its invariants, and time only loosens what they say of the tick. -/
theorem invariantsKeptByEveryStep : Obligations.InvariantsKeptByEveryStep := by
  intro s t hinv h
  obtain ⟨hvalid, -, hsound⟩ := state_inv_iff.1 hinv
  obtain ⟨_, -, -, hgrows⟩ := step_pinLogGrows h
  have hparams : t.params = s.params := hgrows.params
  have hpending : ∀ i ∈ t.pending, i ∈ s.pending := by
    obtain hp | ⟨-, i, hp⟩ := step_pending h <;> rw [hp]
    · exact fun _ => id
    · exact fun _ => List.mem_cons_of_mem i
  refine state_inv_iff.2 ⟨?_, fun c => ?_, fun i hi => ?_⟩
  · rw [hparams]
    exact hvalid
  · rw [hparams]
    exact (step_effect h c).inv hinv
  · exact (hsound i (hpending i hi)).mono (step_effect h .c0).now_le hparams

/-- Settles O17: a step arms no earlier than the tick it takes place at, and time passes no armed event. -/
theorem noEventInThePast : Obligations.NoEventInThePast :=
  fun _ _ hs hrestore h c => (step_effect h c).notStale (hs c) hrestore

/-- Settles O18: each of these calls is taken only when nothing is due by now, for `Startup` by its own check. -/
theorem armedIsAfterNowAtEveryAccess : Obligations.ArmedIsAfterNowAtEveryAccess := by
  intro s t i rest hp hi h hrest
  obtain hsame | ⟨htakes, -⟩ := step_pending h
  · rw [hrest, hp] at hsame
    exact absurd hsame.symm (List.cons_ne_self i rest)
  refine nextDue_none ?_
  obtain ⟨u, rest', hp', -⟩ | ⟨_, _, -, hdue, -⟩ | ⟨_, _, _, -, hdue, -⟩ | ⟨_, -, hdue, -⟩ | ⟨entries, rest', hp', -⟩ |
    ⟨rest', hp', hcheck, ht⟩ := htakes
  · obtain ⟨rfl, -⟩ := List.cons.inj (hp.symm.trans hp')
    simp at hi
  · exact hdue
  · exact hdue
  · exact hdue
  · obtain ⟨rfl, -⟩ := List.cons.inj (hp.symm.trans hp')
    simp at hi
  · obtain ⟨rfl, -⟩ := List.cons.inj (hp.symm.trans hp')
    have hfatal : t.fatalCode = none := by simpa using hi
    exact hcheck.resolve_left fun hpast => startupStep_fatal ht hpast hfatal

/-- Settles O55: saving and restoring gives each channel back, so that it keeps what it kept. -/
theorem savedListIsSound : Obligations.SavedListIsSound := by
  intro s hinv
  obtain ⟨-, hchan, -⟩ := state_inv_iff.1 hinv
  refine sound_restore_iff.2 fun _ c => ?_
  rw [restoredChannel_serialize]
  exact hchan c

/-- Settles O16: a disarmed, unlatched, `Unprogrammed` channel keeps the invariants, whatever the rest was drawn as. -/
theorem invariantsHoldAtReset : Obligations.InvariantsHoldAtReset := by
  obtain ⟨-, hvalid, -⟩ := resetOfConfigParameters
  have hzero : Channel.zero.CountBound := Nat.zero_le _
  exact ⟨fun p d0 d1 d2 hp h0 h1 h2 => ⟨inv_resetWith hp h0 h1 h2, noStaleEvent_resetWith p d0 d1 d2⟩,
    inv_resetWith hvalid hzero hzero hzero, noStaleEvent_resetWith _ _ _ _⟩

/-- Settles O57: `Channel.atReset` sets the five fields of R43 and leaves every other as drawn. -/
theorem resetState : Obligations.ResetState :=
  fun _ _ _ _ => ⟨rfl, rfl, rfl, rfl, rfl⟩

end Sys2Proof.Machine
end

section
/-! SUPPORT. What a step does with each call, read forwards (spec/20_memory.md R64, R66, R68, R69): the expiry that
comes before it, the access it decodes to, the `Startup` check, and the frame of a read. -/

namespace Sys2Proof.Machine

/-! ## The call at the head of the list (R68, R69) -/

section Calls

variable {s : State} {rest : List Input}

theorem step_bus {tr : Transaction} (hrun : s.Running) (hp : s.pending = .bus tr :: rest) :
    step s = afterExpiries s (ioAccess tr (s.withPending rest)) := by
  simp only [step, takeStep, whileRunning_running hrun, hp]

theorem step_gate {c : ChanId} {level : Bool} (hrun : s.Running) (hp : s.pending = .gate c level :: rest) :
    step s = afterExpiries s (gateStep c level (s.withPending rest)) := by
  simp only [step, takeStep, whileRunning_running hrun, hp]

theorem step_serialize (hrun : s.Running) (hp : s.pending = .serialize :: rest) :
    step s = afterExpiries s (serializeStep (s.withPending rest)) := by
  simp only [step, takeStep, whileRunning_running hrun, hp]

theorem step_startup (hrun : s.Running) (hp : s.pending = .startup :: rest) : step s = startupCall rest s := by
  simp only [step, takeStep, whileRunning_running hrun, hp]

theorem afterExpiries_of_due {a : Nat} {c : ChanId} (hdue : nextDue s.now s = some (a, c)) (k : StepResult) :
    afterExpiries s k = expireStep a c s := by
  simp only [afterExpiries, hdue]

theorem afterExpiries_of_none (hdue : nextDue s.now s = none) (k : StepResult) : afterExpiries s k = k := by
  simp only [afterExpiries, hdue]

theorem startupCall_of_past (hpast : s.hasPast = true) : startupCall rest s = startupStep (s.withPending rest) := by
  rw [startupCall, if_pos hpast]

theorem startupCall_of_no_past (hpast : s.hasPast = false) :
    startupCall rest s = afterExpiries s (startupStep (s.withPending rest)) := by
  rw [startupCall, if_neg (by simp [hpast])]

theorem hasPast_eq_false (h : s.NoStaleEvent) : s.hasPast = false := by
  refine Bool.eq_false_of_not_eq_true fun hpast => ?_
  obtain ⟨c, a, ha, hlt⟩ := hasPast_iff.1 hpast
  exact absurd (h c a ha) (by omega)

/-- The next due event is the earliest armed, so that no event is in the past if that one is not. -/
theorem noStaleEvent_of_nextDue {t a : Nat} {c : ChanId} (hdue : nextDue t s = some (a, c)) (ha : s.now ≤ a) :
    s.NoStaleEvent :=
  fun c' a' ha' => ha.trans (nextDue_le hdue c' a' ha')

/-- R69: the expiry due at the current tick is the step, whatever of these calls is pending. -/
theorem step_of_due {i : Input} {a : Nat} {c : ChanId} (hrun : s.Running) (hp : s.pending = i :: rest)
    (hi : (∃ tr, i = .bus tr) ∨ (∃ c' level, i = .gate c' level) ∨ i = .serialize ∨ i = .startup)
    (hdue : nextDue s.now s = some (a, c)) (ha : s.now ≤ a) :
    ∃ d, expiry a (s.params.clkPeriod c) (s.chan c) = .ok d ∧ step s = .next (expired a c d s) := by
  obtain ⟨d, hd⟩ := expiry_ok a (s.params.clkPeriod c) (s.chan c)
  refine ⟨d, hd, (?_ : step s = expireStep a c s).trans (expireStep_of_le ha hd)⟩
  obtain ⟨tr, rfl⟩ | ⟨c', level, rfl⟩ | rfl | rfl := hi
  · rw [step_bus hrun hp, afterExpiries_of_due hdue]
  · rw [step_gate hrun hp, afterExpiries_of_due hdue]
  · rw [step_serialize hrun hp, afterExpiries_of_due hdue]
  · rw [step_startup hrun hp, startupCall_of_no_past (hasPast_eq_false (noStaleEvent_of_nextDue hdue ha)),
      afterExpiries_of_due hdue]

end Calls

/-- The state after an expiry, field by field. -/
theorem expired_eq (a : Nat) (c : ChanId) (d : Drive) (s : State) :
    expired a c d s =
      { State.setChan c d.ch s with
        now := a
        pinLog := s.pinLog ++ Spec.calls c d.calls { s with now := a } } := by
  cases c <;> rfl

/-- An expiry at the current tick leaves time alone. -/
theorem expired_now_eq (c : ChanId) (d : Drive) (s : State) :
    expired s.now c d s = { State.setChan c d.ch s with pinLog := s.pinLog ++ Spec.calls c d.calls s } := by
  cases c <;> rfl

/-! ## The least channel among events at one tick (R150, R229) -/

theorem ChanId.index_injective : Function.Injective ChanId.index := by
  intro c c'
  cases c <;> cases c' <;> simp [ChanId.index]

/-- The second of two events is taken only when it is strictly the earlier. -/
theorem earlier_some_cases {x y : Option (Nat × ChanId)} {p : Nat × ChanId} (h : earlier x y = some p) :
    x = some p ∨ (y = some p ∧ ∀ q ∈ x, p.1 < q.1) := by
  unfold earlier at h
  split at h
  · exact .inr ⟨h, by simp⟩
  · exact .inl h
  · split at h
    · exact .inl h
    · injection h with h
      subst h
      exact .inr ⟨rfl, fun q hq => by injection hq with hq; subst hq; omega⟩

theorem dueBy_of_le {t a : Nat} {c : ChanId} {s : State} (ha : (s.chan c).armedUntilTick = some a) (hle : a ≤ t) :
    dueBy t c s = some (a, c) := by
  simp only [dueBy, ha, if_pos hle]

/-- R150, R229: of the events at the tick of the next due one, that of the least channel is next. -/
theorem nextDue_index_le {t a : Nat} {c c' : ChanId} {s : State} (h : nextDue t s = some (a, c))
    (ha : (s.chan c').armedUntilTick = some a) : c.index ≤ c'.index := by
  have hdue : dueBy t c' s = some (a, c') := dueBy_of_le ha (nextDue_some h).2
  have before {b : ChanId} (hlt : ∀ q ∈ dueBy t b s, a < q.1) : c' ≠ b := by
    rintro rfl
    exact absurd (hlt _ hdue) (lt_irrefl a)
  obtain h0 | ⟨h, h0⟩ := earlier_some_cases h
  · obtain ⟨rfl, -⟩ := dueBy_some h0
    exact Nat.zero_le _
  · have hne0 := before h0
    obtain h1 | ⟨h2, h1⟩ := earlier_some_cases h
    · obtain ⟨rfl, -⟩ := dueBy_some h1
      cases c' with
      | c0 => exact absurd rfl hne0
      | c1 | c2 => decide
    · have hne1 := before h1
      obtain ⟨rfl, -⟩ := dueBy_some h2
      cases c' with
      | c0 => exact absurd rfl hne0
      | c1 => exact absurd rfl hne1
      | c2 => exact le_rfl

/-- R150, R229: the earliest event, and of those at its tick the one of the least channel, is the next due. -/
theorem nextDue_eq_some {t a : Nat} {c : ChanId} {s : State} (ha : (s.chan c).armedUntilTick = some a) (hle : a ≤ t)
    (hearliest : ∀ c', ∀ a' ∈ (s.chan c').armedUntilTick, a ≤ a')
    (hleast : ∀ c', c'.index < c.index → (s.chan c').armedUntilTick ≠ some a) : nextDue t s = some (a, c) := by
  cases hn : nextDue t s with
  | none => exact absurd (nextDue_none hn c a ha) (by omega)
  | some p =>
    obtain ⟨b, c'⟩ := p
    have hb := (nextDue_some hn).1
    obtain rfl : b = a := le_antisymm (nextDue_le hn c a ha) (hearliest c' b hb)
    have hindex : c'.index = c.index :=
      le_antisymm (nextDue_index_le hn ha) (Nat.le_of_not_lt fun hlt => hleast c' hlt hb)
    rw [ChanId.index_injective hindex]

theorem nextDue_eq_none {t : Nat} {s : State} (h : ∀ c, ∀ a ∈ (s.chan c).armedUntilTick, t < a) :
    nextDue t s = none := by
  refine Option.eq_none_iff_forall_ne_some.2 fun ⟨a, c⟩ hn => ?_
  obtain ⟨ha, hle⟩ := nextDue_some hn
  exact absurd (h c a ha) (by omega)

/-! ## The check of a transaction (R64, R180) -/

theorem ioAccess_of_decode {tr : Transaction} {i : Instr} (h : decode tr = .ok i) (s : State) :
    ioAccess tr s = exec i s := by
  simp only [ioAccess, h]

/-- R64: a transaction of another size or outside the window is no instruction. -/
theorem decode_of_badAccess {tr : Transaction} (h : tr.size ≠ 1 ∨ 3 < tr.address) : ∃ e, decode tr = .error e := by
  unfold decode
  split
  · exact ⟨_, rfl⟩
  · rw [if_pos (h.resolve_left ‹_›)]
    exact ⟨_, rfl⟩

theorem ioAccess_of_badAccess {tr : Transaction} (h : tr.size ≠ 1 ∨ 3 < tr.address) (s : State) :
    ioAccess tr s = takeFatal (.badAccess tr.address tr.size) s := by
  obtain ⟨e, he⟩ := decode_of_badAccess h
  simp only [ioAccess, he]

theorem not_mem_window {a : Nat} : a ∉ [0, 1, 2, 3] ↔ 3 < a := by
  simp only [List.mem_cons, List.not_mem_nil, or_false]
  omega

/-! ## The `Startup` check (R205) -/

theorem inPast_eq_true {now : Nat} {ch : Channel} (h : ∃ a, ch.armedUntilTick = some a ∧ a < now) :
    ch.inPast now = true := by
  obtain ⟨a, ha, hlt⟩ := h
  simp [Channel.inPast, ha, hlt]

theorem inPast_eq_false {now : Nat} {ch : Channel} (h : ∀ a ∈ ch.armedUntilTick, now ≤ a) : ch.inPast now = false := by
  unfold Channel.inPast
  split
  · rfl
  · simpa using h _ ‹_›

theorem startupStep_of_no_past {s : State} (h : s.hasPast = false) : startupStep s = .next s := by
  obtain ⟨-, hs⟩ | ⟨hpast, -⟩ := startupStep_cases s
  · exact hs
  · exact absurd (h.symm.trans hpast) (by decide)

/-- R205: the check names the least channel with an event in the past. -/
theorem startupStep_of_past {c : ChanId} {s : State} (hc : (s.chan c).inPast s.now = true)
    (hleast : ∀ c', c'.index < c.index → (s.chan c').inPast s.now = false) :
    startupStep s = takeFatal (.checkpointInconsistent c) s := by
  cases c with
  | c0 => exact if_pos hc
  | c1 =>
    have h0 : s.ch0.inPast s.now = false := hleast .c0 (by decide)
    have h1 : s.ch1.inPast s.now = true := hc
    simp [startupStep, h0, h1]
  | c2 =>
    have h0 : s.ch0.inPast s.now = false := hleast .c0 (by decide)
    have h1 : s.ch1.inPast s.now = false := hleast .c1 (by decide)
    have h2 : s.ch2.inPast s.now = true := hc
    simp [startupStep, h0, h1, h2]

/-! ## The frame of a read (R66, R132) -/

/-- From `s` to `t` no pin call is made, no time passes, no call is taken, and of every channel only the read half and
the two latch flags may differ. -/
structure ReadFrame (s t : State) : Prop where
  pinLog : t.pinLog = s.pinLog
  now : t.now = s.now
  pending : t.pending = s.pending
  chan : ∀ c, ∃ h l sl, t.chan c = { s.chan c with readHalf := h, latched := l, statusLatched := sl }

theorem busRead_readFrame {c : ChanId} {s t : State} (h : busRead c s = .next t) : ReadFrame s t := by
  have hchan := busRead_chan h
  obtain rfl := busRead_next h
  refine ⟨by simp [State.replyRead], by simp [State.replyRead], by simp [State.replyRead], fun c' => ?_⟩
  rw [hchan]
  split
  · subst c'
    exact readData_frame _ _ _ _
  · exact ⟨_, _, _, rfl⟩

theorem execRdCtl_readFrame {d : Byte} {s t : State} (h : execRdCtl d s = .next t) : ReadFrame s t := by
  have hchan := execRdCtl_chan h
  obtain rfl := execRdCtl_next h
  exact ⟨rfl, rfl, rfl, fun c => ⟨_, _, _, hchan c⟩⟩

/-! ## The statements -/

/-- Settles O26: a read is a data-port read or a read of the control port, and each keeps the frame. -/
theorem readsAreNonDisruptive : Obligations.ReadsAreNonDisruptive := by
  intro i s t hi h
  obtain ⟨hpinLog, hnow, hpending, hchan⟩ : ReadFrame s t := by
    obtain ⟨c, hc⟩ | hc := exec_of_read hi s <;> rw [hc] at h
    · exact busRead_readFrame h
    · exact execRdCtl_readFrame h
  exact ⟨hpinLog, hnow, hpending, hchan⟩

/-- Settles O5: with nothing due the step is the access, and the access is the decoded instruction. -/
theorem stepRunsDecodedTransaction : Obligations.StepRunsDecodedTransaction := by
  intro s tr rest i hrun hp hdue hdecode
  rw [step_bus hrun hp, afterExpiries_of_none hdue, ioAccess_of_decode hdecode]
  rfl

/-- Settles O6: each of these calls waits for the expiry, for `Startup` because none is in the past. -/
theorem dueExpiryComesFirst : Obligations.DueExpiryComesFirst := by
  intro s a c i rest hrun hp hi hdue ha
  obtain ⟨d, hd, hstep⟩ := step_of_due hrun hp hi hdue ha
  exact ⟨d, hd, by rw [hstep, expired_eq]⟩

/-- Settles O11: the check comes before the decoding, and `BadAccess` only records its code. -/
theorem badAccessIsFatal : Obligations.BadAccessIsFatal := by
  intro s tr rest hrun hp hdue hbad
  rw [not_mem_window] at hbad
  rw [step_bus hrun hp, afterExpiries_of_none hdue, ioAccess_of_badAccess hbad]
  rfl

/-- Settles O56: with every event after now nothing is due, with none before now the least channel due is fired, and
an event before now is found by the check first. -/
theorem startupChecksForThePast : Obligations.StartupChecksForThePast := by
  intro s rest hrun hp
  refine ⟨fun hafter => ?_, fun c hnow hc hleast => ?_, fun c hpast hleast => ?_⟩
  · have hno : s.hasPast = false := hasPast_eq_false fun c a ha => (hafter c a ha).le
    rw [step_startup hrun hp, startupCall_of_no_past hno, afterExpiries_of_none (nextDue_eq_none hafter)]
    exact startupStep_of_no_past hno
  · have hdue : nextDue s.now s = some (s.now, c) := nextDue_eq_some hc le_rfl hnow hleast
    obtain ⟨d, hd, hstep⟩ := step_of_due hrun hp (.inr (.inr (.inr rfl))) hdue le_rfl
    exact ⟨d, hd, by rw [hstep, expired_now_eq]⟩
  · obtain ⟨a, ha, hlt⟩ := hpast
    rw [step_startup hrun hp, startupCall_of_past (hasPast_iff.2 ⟨c, a, ha, hlt⟩)]
    refine startupStep_of_past (s := s.withPending rest) ?_ fun c' hc' => ?_ <;> rw [withPending_chan]
    · exact inPast_eq_true ⟨a, ha, hlt⟩
    · exact inPast_eq_false (hleast c' hc')

end Sys2Proof.Machine
end

section
/-! SUPPORT. The decoder and the encoder (spec/30_encoding.md R80 to R90): which instruction the fields of a word
select, the word of every family of instructions, and that the two are inverse to each other. -/

namespace Sys2Proof.Machine

section Encoding

open Spec

/-! ## The codes of the fields (R84, R85, R87) -/

@[simp] theorem channelOf_index (c : ChanId) : channelOf (BitVec.ofNat 2 c.index) = c := by
  cases c <;> rfl

theorem index_channelOf {f : BitVec 2} (h : f ≠ 3#2) : BitVec.ofNat 2 (channelOf f).index = f := by
  decide +revert

theorem channelBits_ne_three (c : ChanId) : BitVec.ofNat 2 c.index ≠ 3#2 := by
  cases c <;> decide

@[simp] theorem accessOf_code (am : AccessMode) : accessOf am.code = am := by
  cases am <;> rfl

theorem code_accessOf {f : BitVec 2} (h : f ≠ 0#2) : (accessOf f).code = f := by
  decide +revert

theorem accessCode_ne_zero (am : AccessMode) : am.code ≠ 0#2 := by
  cases am <;> decide

@[simp] theorem modeOf_code (m : Mode) : modeOf m.code = m := by
  cases m <;> rfl

theorem code_modeOf {f : BitVec 3} (h : ¬6 ≤ f.toNat) : (modeOf f).code = f := by
  decide +revert

/-! ## A word is its fields (R80, R82) -/

theorem packWord_of_fields (w : TW) : packWord (wordIsWrite w) (wordAddress w) (wordPayload w) = w := by
  have hbit : BitVec.ofBool (w.getLsbD 10) = w.extractLsb' 10 1 := by
    ext i hi
    obtain rfl : i = 0 := by omega
    simp
  rw [packWord, wordIsWrite, wordAddress, wordPayload, hbit,
    BitVec.extractLsb'_append_extractLsb'_eq_extractLsb' (start₁ := 8) (start₂ := 10) rfl,
    BitVec.extractLsb'_append_extractLsb'_eq_extractLsb' (start₁ := 0) (start₂ := 8) rfl]
  exact BitVec.extractLsb'_eq_self

theorem controlWord_eq_append (d : Byte) : controlWord d = 7#3 ++ d := rfl

/-- A control-port write is known by its three high bits (R81). -/
theorem controlWord_of_high {w : TW} (h : w.extractLsb' 8 3 = 7#3) : controlWord (wordPayload w) = w := by
  rw [controlWord_eq_append, ← h, wordPayload,
    BitVec.extractLsb'_append_extractLsb'_eq_extractLsb' (start₁ := 0) (start₂ := 8) rfl]
  exact BitVec.extractLsb'_eq_self

section Byte

variable (d : Byte)

theorem controlByte_of_fields : controlByte (controlSC d) (controlRW d) (controlM d) (controlBCD d) = d := by
  decide +revert

theorem latchByte_of_fields : controlSC d ++ controlRW d ++ d.extractLsb' 0 4 = d := by
  decide +revert

theorem reservedProgramByte_of_fields (h : 6 ≤ (controlM d).toNat) :
    controlSC d ++ controlRW d ++ 3#2 ++ d.extractLsb' 0 2 = d := by
  decide +revert

theorem readBackByte_of_fields (hsc : controlSC d = 3#2) (h : d.getLsbD 0 = false) :
    readBackByte (d.getLsbD 5) (d.getLsbD 4) (d.getLsbD 3) (d.getLsbD 2) (d.getLsbD 1) = d := by
  decide +revert

theorem reservedReadBackByte_of_fields (hsc : controlSC d = 3#2) (h : d.getLsbD 0 = true) :
    3#2 ++ d.extractLsb' 1 5 ++ 1#1 = d := by
  decide +revert

end Byte

/-! ## The word of each family -/

/-- `PROG.C<c>.<am>.RSVD` (R90): the 9 rows. -/
def reservedProgramInstr (c : ChanId) (am : AccessMode) (low : BitVec 2) : Instr :=
  match c, am with
  | .c0, .lowOnly => .progC0LsbRsvd low
  | .c0, .highOnly => .progC0MsbRsvd low
  | .c0, .lowHigh => .progC0LohiRsvd low
  | .c1, .lowOnly => .progC1LsbRsvd low
  | .c1, .highOnly => .progC1MsbRsvd low
  | .c1, .lowHigh => .progC1LohiRsvd low
  | .c2, .lowOnly => .progC2LsbRsvd low
  | .c2, .highOnly => .progC2MsbRsvd low
  | .c2, .lowHigh => .progC2LohiRsvd low

theorem encodeWord_readInstr (c : ChanId) (d : Byte) :
    encodeWord (readInstr c d) = packWord false (BitVec.ofNat 2 c.index) d := by
  cases c <;> rfl

theorem encodeWord_writeInstr (c : ChanId) (d : Byte) :
    encodeWord (writeInstr c d) = packWord true (BitVec.ofNat 2 c.index) d := by
  cases c <;> rfl

theorem encodeWord_latchInstr (c : ChanId) (low : BitVec 4) :
    encodeWord (latchInstr c low) = latchWord (BitVec.ofNat 2 c.index) low := by
  cases c <;> rfl

theorem encodeWord_programInstr (c : ChanId) (am : AccessMode) (m : Mode) (bcd : Bool) :
    encodeWord (programInstr c am m bcd) = programWord (BitVec.ofNat 2 c.index) am.code m.code bcd := by
  cases c <;> cases am <;> cases m <;> rfl

theorem encodeWord_reservedProgramInstr (c : ChanId) (am : AccessMode) (low : BitVec 2) :
    encodeWord (reservedProgramInstr c am low) = reservedProgramWord (BitVec.ofNat 2 c.index) am.code low := by
  cases c <;> cases am <;> rfl

/-! ## The instruction the fields select -/

theorem decodeWord_read {a : BitVec 2} (ha : a ≠ 3#2) (d : Byte) :
    decodeWord (packWord false a d) = readInstr (channelOf a) d := by
  simp only [decodeWord, wordIsWrite_packWord, wordAddress, packWord_address, wordPayload, packWord_payload]
  rw [← index_channelOf ha, channelOf_index]
  cases channelOf a <;> rfl

theorem decodeWord_readControl (d : Byte) : decodeWord (packWord false 3#2 d) = .rdCtl d := by
  simp only [decodeWord, wordIsWrite_packWord, wordAddress, packWord_address, wordPayload, packWord_payload]
  rfl

theorem decodeWord_write {a : BitVec 2} (ha : a ≠ 3#2) (d : Byte) :
    decodeWord (packWord true a d) = writeInstr (channelOf a) d := by
  simp only [decodeWord, wordIsWrite_packWord, wordAddress, packWord_address, wordPayload, packWord_payload]
  rw [← index_channelOf ha, channelOf_index]
  cases channelOf a <;> rfl

theorem decodeWord_controlWord (d : Byte) : decodeWord (controlWord d) = decodeControl d := by
  simp only [decodeWord, controlWord, wordIsWrite_packWord, wordAddress, packWord_address, wordPayload,
    packWord_payload]
  rfl

section Control

variable {d : Byte}

theorem decodeControl_of_readBack (hsc : controlSC d = 3#2) : decodeControl d = decodeReadBack d := by
  rw [decodeControl, hsc]
  rfl

theorem decodeControl_of_latch (hsc : controlSC d ≠ 3#2) (hrw : controlRW d = 0#2) :
    decodeControl d = latchInstr (channelOf (controlSC d)) (d.extractLsb' 0 4) := by
  simp only [decodeControl, decodeChannel0, decodeChannel1, decodeChannel2, hrw]
  rw [← index_channelOf hsc, channelOf_index]
  cases channelOf (controlSC d) <;> rfl

theorem decodeControl_of_program (hsc : controlSC d ≠ 3#2) (hrw : controlRW d ≠ 0#2) (hm : ¬6 ≤ (controlM d).toNat) :
    decodeControl d =
      programInstr (channelOf (controlSC d)) (accessOf (controlRW d)) (modeOf (controlM d)) (controlBCD d) := by
  simp only [decodeControl, decodeChannel0, decodeChannel1, decodeChannel2]
  rw [← index_channelOf hsc, ← code_accessOf hrw, ← code_modeOf hm, channelOf_index, accessOf_code, modeOf_code]
  cases channelOf (controlSC d) <;> cases accessOf (controlRW d) <;> cases modeOf (controlM d) <;> rfl

/-- The bits a reserved mode program ignores are bits 1:0 of its control byte (R90). -/
theorem pickMode_of_reserved (hm : 6 ≤ (controlM d).toNat) (m0 m1 m2 m3 m4 m5 : Bool → Instr)
    (rsvd : BitVec 2 → Instr) :
    pickMode (controlM d) (controlBCD d) m0 m1 m2 m3 m4 m5 rsvd = rsvd (d.extractLsb' 0 2) := by
  have hlow : (controlM d).extractLsb' 0 1 ++ BitVec.ofBool (controlBCD d) = d.extractLsb' 0 2 := by decide +revert
  have hsix : controlM d = 6#3 ∨ controlM d = 7#3 := by
    generalize controlM d = m at hm
    decide +revert
  rw [pickMode, hlow]
  obtain h | h := hsix <;> rw [h] <;> rfl

theorem decodeControl_of_reserved (hsc : controlSC d ≠ 3#2) (hrw : controlRW d ≠ 0#2) (hm : 6 ≤ (controlM d).toNat) :
    decodeControl d =
      reservedProgramInstr (channelOf (controlSC d)) (accessOf (controlRW d)) (d.extractLsb' 0 2) := by
  simp only [decodeControl, decodeChannel0, decodeChannel1, decodeChannel2, pickMode_of_reserved hm]
  rw [← index_channelOf hsc, ← code_accessOf hrw, channelOf_index, accessOf_code]
  cases channelOf (controlSC d) <;> cases accessOf (controlRW d) <;> rfl

end Control

theorem decodeWord_latchWord {sc : BitVec 2} (hsc : sc ≠ 3#2) (low : BitVec 4) :
    decodeWord (latchWord sc low) = latchInstr (channelOf sc) low := by
  obtain ⟨h1, h2⟩ := latchByte_fields sc low
  have h := @decodeControl_of_latch (sc ++ 0#2 ++ low)
  simp only [controlSC, controlRW, h1, h2, BitVec.extractLsb'_append_eq_right] at h
  rw [latchWord, decodeWord_controlWord, h hsc trivial]

theorem decodeWord_programWord {sc rw : BitVec 2} {m : BitVec 3} (hsc : sc ≠ 3#2) (hrw : rw ≠ 0#2)
    (hm : ¬6 ≤ m.toNat) (bcd : Bool) :
    decodeWord (programWord sc rw m bcd) = programInstr (channelOf sc) (accessOf rw) (modeOf m) bcd := by
  obtain ⟨h1, h2, h3, h4⟩ := controlByte_fields sc rw m bcd
  have h := @decodeControl_of_program (controlByte sc rw m bcd)
  simp only [controlSC, controlRW, controlM, controlBCD, h1, h2, h3, h4] at h
  rw [programWord, decodeWord_controlWord, h hsc hrw hm]

theorem decodeWord_reservedProgramWord {sc rw : BitVec 2} (hsc : sc ≠ 3#2) (hrw : rw ≠ 0#2) (low : BitVec 2) :
    decodeWord (reservedProgramWord sc rw low) = reservedProgramInstr (channelOf sc) (accessOf rw) low := by
  obtain ⟨h1, h2, h3⟩ := reservedProgramByte_fields sc rw low
  have h := @decodeControl_of_reserved (sc ++ rw ++ 3#2 ++ low)
  simp only [controlSC, controlRW, controlM, h1, h2, BitVec.extractLsb'_append_eq_right] at h
  rw [reservedProgramWord, decodeWord_controlWord, h hsc hrw h3]

theorem decodeWord_readBack (nc ns k2 k1 k0 : Bool) :
    decodeWord (encodeWord (.rdbk nc ns k2 k1 k0)) = .rdbk nc ns k2 k1 k0 := by
  obtain ⟨h1, h2, h3, h4, h5, h6, h7⟩ := readBackByte_fields nc ns k2 k1 k0
  change decodeWord (controlWord (readBackByte nc ns k2 k1 k0)) = _
  rw [decodeWord_controlWord, decodeControl_of_readBack h1, decodeReadBack, h2, h3, h4, h5, h6, h7]
  rfl

theorem decodeWord_reservedReadBack (ignored : BitVec 5) :
    decodeWord (encodeWord (.rdbkRsvd ignored)) = .rdbkRsvd ignored := by
  obtain ⟨h1, h2⟩ := reservedReadBackByte_fields ignored
  have hlow : (3#2 ++ ignored ++ 1#1).extractLsb' 1 5 = ignored := by decide +revert
  rw [encodeWord, decodeWord_controlWord, decodeControl_of_readBack h1, decodeReadBack, if_pos h2, hlow]

/-! ## The round trips -/

/-- R80 to R90: the word of an instruction decodes to that instruction. -/
theorem decodeWord_encodeWord (i : Instr) : decodeWord (encodeWord i) = i := by
  cases i
  case rdCnt0 | rdCnt1 | rdCnt2 => exact decodeWord_read (by decide) _
  case rdCtl => exact decodeWord_readControl _
  case wrCnt0 | wrCnt1 | wrCnt2 => exact decodeWord_write (by decide) _
  case latch0 | latch1 | latch2 => exact decodeWord_latchWord (by decide) _
  case rdbk => exact decodeWord_readBack _ _ _ _ _
  case rdbkRsvd => exact decodeWord_reservedReadBack _
  case progC0LsbRsvd | progC0MsbRsvd | progC0LohiRsvd | progC1LsbRsvd | progC1MsbRsvd | progC1LohiRsvd |
      progC2LsbRsvd | progC2MsbRsvd | progC2LohiRsvd =>
    exact decodeWord_reservedProgramWord (by decide) (by decide) _
  all_goals exact decodeWord_programWord (by decide) (by decide) (by decide) _

theorem encodeWord_decodeReadBack {d : Byte} (hsc : controlSC d = 3#2) :
    encodeWord (decodeReadBack d) = controlWord d := by
  unfold decodeReadBack
  split
  · exact congrArg controlWord (reservedReadBackByte_of_fields d hsc ‹_›)
  · exact congrArg controlWord (readBackByte_of_fields d hsc (Bool.eq_false_of_not_eq_true ‹_›))

theorem encodeWord_decodeControl (d : Byte) : encodeWord (decodeControl d) = controlWord d := by
  by_cases hsc : controlSC d = 3#2
  · rw [decodeControl_of_readBack hsc, encodeWord_decodeReadBack hsc]
  by_cases hrw : controlRW d = 0#2
  · rw [decodeControl_of_latch hsc hrw, encodeWord_latchInstr, index_channelOf hsc, latchWord, ← hrw,
      latchByte_of_fields]
  by_cases hm : 6 ≤ (controlM d).toNat
  · rw [decodeControl_of_reserved hsc hrw hm, encodeWord_reservedProgramInstr, index_channelOf hsc, code_accessOf hrw,
      reservedProgramWord, reservedProgramByte_of_fields d hm]
  · rw [decodeControl_of_program hsc hrw hm, encodeWord_programInstr, index_channelOf hsc, code_accessOf hrw,
      code_modeOf hm, programWord, controlByte_of_fields]

/-- R83: every word is the word of the instruction it decodes to. -/
theorem encodeWord_decodeWord (w : TW) : encodeWord (decodeWord w) = w := by
  rw [← packWord_of_fields w]
  generalize wordIsWrite w = write, wordAddress w = a, wordPayload w = d
  by_cases ha : a = 3#2
  · subst ha
    cases write
    · rw [decodeWord_readControl, encodeWord]
    · rw [← controlWord, decodeWord_controlWord, encodeWord_decodeControl]
  · cases write
    · rw [decodeWord_read ha, encodeWord_readInstr, index_channelOf ha]
    · rw [decodeWord_write ha, encodeWord_writeInstr, index_channelOf ha]

theorem transactionWord_wordTransaction (w : TW) : transactionWord (wordTransaction w) = w := by
  have hdirection : ((if wordIsWrite w then Direction.write else .read) == .write) = wordIsWrite w := by
    cases wordIsWrite w <;> rfl
  rw [transactionWord, wordTransaction, hdirection, BitVec.ofNat_toNat, BitVec.setWidth_eq, packWord_of_fields]

theorem decode_wordTransaction (w : TW) : decode (wordTransaction w) = .ok (decodeWord w) := by
  have haddress : ¬3 < (wordTransaction w).address := by
    have := (wordAddress w).isLt
    change ¬3 < (wordAddress w).toNat
    omega
  have hsize : (wordTransaction w).size = 1 := rfl
  rw [decode, if_neg (not_not_intro hsize), if_neg haddress, transactionWord_wordTransaction]

theorem decodeNat_toNat (w : TW) : decodeNat w.toNat = .ok (decodeWord w) := by
  rw [decodeNat, if_pos w.isLt, BitVec.ofNat_toNat, BitVec.setWidth_eq, decode_wordTransaction]

/-- A word of the opcode table, in the two bytes the table is read in, is the instruction it encodes. -/
theorem decodeTableWord_encodeWord (i : Instr) : decodeTableWord 16 (encodeWord i).toNat = some i := by
  have hlt := (encodeWord i).isLt
  rw [decodeTableWord, Nat.mod_eq_of_lt (by omega), decodeNat_toNat, decodeWord_encodeWord]

/-! ## The bits of a mode program and of the status byte -/

theorem programWord_eq_append (sc rw : BitVec 2) (m : BitVec 3) (bcd : Bool) :
    programWord sc rw m bcd = 7#3 ++ sc ++ rw ++ m ++ BitVec.ofBool bcd := by
  decide +revert

/-- A byte of fields laid out as R89 has them. -/
theorem statusByte_fields (out null : Bool) (rw : BitVec 2) (m : BitVec 3) (bcd : BitVec 1) :
    let b := BitVec.ofBool out ++ BitVec.ofBool null ++ rw ++ m ++ bcd
    b.getLsbD 7 = out ∧ b.getLsbD 6 = null ∧ b.extractLsb' 4 2 = rw ∧ b.extractLsb' 1 3 = m ∧
      b.getLsbD 0 = bcd.getLsbD 0 := by
  decide +revert

end Encoding

/-! ## The statements -/

/-- Settles O1: field by field, the decoder selects the row the fields name, and the row's word has those fields. -/
theorem decodeEncodeAgree : Obligations.DecodeEncodeAgree := by
  refine ⟨fun i => ?_, encodeWord_decodeWord⟩
  rw [encode, decode_wordTransaction, decodeWord_encodeWord]

/-- Settles O2: each number is the word of its instruction, so the round trip applies. -/
theorem decodeOfSpecWords : Obligations.DecodeOfSpecWords :=
  ⟨decodeTableWord_encodeWord (.rdCnt1 0x00#8), decodeTableWord_encodeWord (.rdCtl 0x00#8),
    decodeTableWord_encodeWord (.wrCnt0 0x64#8), decodeTableWord_encodeWord (.latch0 0xF#4),
    decodeTableWord_encodeWord (.progC0LohiM2 false), decodeTableWord_encodeWord (.progC2LsbM5 true),
    decodeTableWord_encodeWord (.progC2LohiRsvd 1#2), decodeTableWord_encodeWord (.rdbk false false false false true),
    decodeTableWord_encodeWord (.rdbk true false false true false), decodeTableWord_encodeWord (.rdbkRsvd 1#5)⟩

/-- Settles O4: the word is read off the encoder, and the round trip gives the instruction back. -/
theorem programWordIsItsFields : Obligations.ProgramWordIsItsFields := by
  intro c am m bcd
  have hword : encodeWord (Spec.programInstr c am m bcd) =
      7#3 ++ BitVec.ofNat 2 c.index ++ am.code ++ m.code ++ BitVec.ofBool bcd := by
    rw [encodeWord_programInstr, programWord_eq_append]
  exact ⟨hword, by rw [← hword, decodeWord_encodeWord]⟩

/-- Settles O23: the five fields at their places, with the codes of R131. -/
theorem statusByteLayout : Obligations.StatusByteLayout := by
  intro ch
  obtain ⟨hout, hnull, hrw, hm, hbcd⟩ :=
    statusByte_fields ch.outputLevel ch.nullCount ch.accessMode.code ch.mode.code ch.countFormat.code
  refine ⟨hout, hnull, hrw.trans ?_, hm.trans ?_, hbcd.trans ?_⟩
  · cases ch.accessMode <;> rfl
  · cases ch.mode <;> rfl
  · cases ch.countFormat <;> rfl

end Sys2Proof.Machine
end

section
/-! SUPPORT. The reserved control bytes (spec/30_encoding.md R90) and the data-port write that completes a count
(R91, spec/40_channel_program_and_load.md R104, R113). -/

namespace Sys2Proof.Machine

open Spec

/-! ## The reserved control bytes (R90) -/

/-- The control bytes that are no command (R90): a read-back with bit 0 set, a mode program with `M` 6 or 7. -/
def reservedByte (d : Byte) : Bool :=
  if controlSC d = 3#2 then d.getLsbD 0 else controlRW d != 0#2 && decide (6 ≤ (controlM d).toNat)

theorem reservedWord_controlWord (d : Byte) : reservedWord (controlWord d) = reservedByte d := by
  rw [reservedWord, controlWord_eq_append, BitVec.extractLsb'_append_eq_left,
    BitVec.extractLsb'_append_eq_of_add_le (start := 6) (by decide),
    BitVec.extractLsb'_append_eq_of_add_le (start := 4) (by decide),
    BitVec.extractLsb'_append_eq_of_add_le (start := 1) (by decide), BitVec.getLsbD_append]
  rfl

/-- A reserved word is a control-port write (R90). -/
theorem reservedWord_eq_true {w : TW} (h : reservedWord w = true) :
    ∃ d, w = controlWord d ∧ reservedByte d = true := by
  have hhigh : w.extractLsb' 8 3 = 7#3 := by
    rw [reservedWord, Bool.and_eq_true, beq_iff_eq] at h
    exact h.1
  rw [← controlWord_of_high hhigh, reservedWord_controlWord] at h
  exact ⟨_, (controlWord_of_high hhigh).symm, h⟩

theorem mem_reservedInstrs {low : BitVec 2} {rest : BitVec 5} {i : Instr} :
    i ∈ reservedInstrs low rest ↔ (∃ c am, i = reservedProgramInstr c am low) ∨ i = .rdbkRsvd rest := by
  constructor
  · intro h
    fin_cases h
    exacts [.inl ⟨.c0, .lowOnly, rfl⟩, .inl ⟨.c0, .highOnly, rfl⟩, .inl ⟨.c0, .lowHigh, rfl⟩,
      .inl ⟨.c1, .lowOnly, rfl⟩, .inl ⟨.c1, .highOnly, rfl⟩, .inl ⟨.c1, .lowHigh, rfl⟩,
      .inl ⟨.c2, .lowOnly, rfl⟩, .inl ⟨.c2, .highOnly, rfl⟩, .inl ⟨.c2, .lowHigh, rfl⟩, .inr rfl]
  · rintro (⟨c, am, rfl⟩ | rfl)
    · cases c <;> cases am <;> simp [reservedInstrs, reservedProgramInstr]
    · simp [reservedInstrs]

theorem reservedByte_reservedProgram {sc rw : BitVec 2} (hsc : sc ≠ 3#2) (hrw : rw ≠ 0#2) (low : BitVec 2) :
    reservedByte (sc ++ rw ++ 3#2 ++ low) = true := by
  obtain ⟨h1, h2, h3⟩ := reservedProgramByte_fields sc rw low
  rw [reservedByte, controlSC, h1, if_neg hsc, controlRW, h2, controlM, decide_eq_true h3, bne_iff_ne.2 hrw]
  rfl

theorem reservedByte_reservedReadBack (ignored : BitVec 5) : reservedByte (3#2 ++ ignored ++ 1#1) = true := by
  obtain ⟨h1, h2⟩ := reservedReadBackByte_fields ignored
  rw [reservedByte, controlSC, if_pos h1, h2]

/-- The instruction a reserved control byte decodes to is one of the ten rows (R90). -/
theorem decodeControl_of_reservedByte {d : Byte} (h : reservedByte d = true) :
    ∃ low rest, decodeControl d ∈ reservedInstrs low rest := by
  unfold reservedByte at h
  split at h
  · refine ⟨0#2, d.extractLsb' 1 5, mem_reservedInstrs.2 (.inr ?_)⟩
    rw [decodeControl_of_readBack ‹_›, decodeReadBack, if_pos h]
  · obtain ⟨hrw, hm⟩ : controlRW d ≠ 0#2 ∧ 6 ≤ (controlM d).toNat := by simpa using h
    exact ⟨d.extractLsb' 0 2, 0#5, mem_reservedInstrs.2 (.inl ⟨_, _, decodeControl_of_reserved ‹_› hrw hm⟩)⟩

theorem reservedWord_of_mem {low : BitVec 2} {rest : BitVec 5} {i : Instr} (h : i ∈ reservedInstrs low rest) :
    reservedWord (encodeWord i) = true := by
  obtain ⟨c, am, rfl⟩ | rfl := mem_reservedInstrs.1 h
  · rw [encodeWord_reservedProgramInstr, reservedProgramWord, reservedWord_controlWord]
    exact reservedByte_reservedProgram (channelBits_ne_three c) (accessCode_ne_zero am) low
  · rw [encodeWord, reservedWord_controlWord, reservedByte_reservedReadBack]

/-- R90: the reserved words are the words of the ten reserved rows. -/
theorem reservedWord_encodeWord_iff (i : Instr) :
    reservedWord (encodeWord i) = true ↔ ∃ low rest, i ∈ reservedInstrs low rest := by
  constructor
  · intro h
    obtain ⟨d, hd, hbyte⟩ := reservedWord_eq_true h
    rw [← decodeWord_encodeWord i, hd, decodeWord_controlWord]
    exact decodeControl_of_reservedByte hbyte
  · rintro ⟨low, rest, h⟩
    exact reservedWord_of_mem h

theorem exec_of_mem_reservedInstrs {low : BitVec 2} {rest : BitVec 5} {i : Instr} (h : i ∈ reservedInstrs low rest)
    (s : State) : exec i s = reservedWrite s := by
  obtain ⟨c, am, rfl⟩ | rfl := mem_reservedInstrs.1 h
  · cases c <;> cases am <;> rfl
  · rfl

/-- A read-back that selects no latch of a channel changes nothing (R142). -/
theorem readBackChannel_of_idle {nc ns k : Bool} (h : k = false ∨ (nc = true ∧ ns = true)) (c : ChanId) (s : State) :
    readBackChannel nc ns k c s = s := by
  have hidle : readBack nc ns k s.now (s.params.clkPeriod c) (s.chan c) = s.chan c := by
    obtain rfl | ⟨rfl, rfl⟩ := h
    · rfl
    · cases k <;> rfl
  rw [readBackChannel, hidle, setChan_self]

/-! ## A data-port write that completes a count (R91, R104, R113) -/

section CountWrite

variable {now clk : Nat} {ch : Channel} {byte : Byte} {raw : BitVec 16}

/-- The channel whose count the next byte completes (R91): after a `LowHigh` pair the half is back at `Low`. -/
def withPairClosed (ch : Channel) : Channel :=
  { ch with writeHalf := if ch.accessMode = .lowHigh then .low else ch.writeHalf }

theorem withPairClosed_of_ne (h : ch.accessMode ≠ .lowHigh) : withPairClosed ch = ch := by
  rw [withPairClosed, if_neg h]

theorem withPairClosed_of_lowHigh (h : ch.accessMode = .lowHigh) :
    withPairClosed ch = { ch with writeHalf := .low } := by
  rw [withPairClosed, if_pos h]

theorem withCount_eq (ch : Channel) (raw : BitVec 16) :
    withCount ch raw = { withPairClosed ch with countRegister := countOf ch.countFormat raw } := by
  cases hf : ch.countFormat <;> simp [withCount, withPairClosed, countOf, hf]

/-- R91: the write that completes a count hands its 16 bits on. -/
theorem writeData_of_assembled (hp : ch.phase ≠ .unprogrammed) (h : assembled ch byte = some raw) :
    writeData now clk byte ch = countWritten now clk raw (withPairClosed ch) := by
  rw [writeData, if_neg hp]
  unfold assembled at h
  cases ham : ch.accessMode with
  | lowOnly | highOnly =>
    simp only [ham, Option.some.injEq] at h
    simp [withPairClosed_of_ne, ham, ← h, joinBytes]
  | lowHigh =>
    rw [withPairClosed_of_lowHigh ham]
    cases hhalf : ch.writeHalf with
    | low => simp [ham, hhalf] at h
    | high =>
      simp only [ham, hhalf, Option.some.injEq] at h
      simp [← h, joinBytes, ham]

theorem writeData_waits (hp : ch.phase ≠ .unprogrammed) (h : assembled ch byte = some raw)
    (hm : ch.mode = .m1 ∨ ch.mode = .m5) :
    writeData now clk byte ch =
      .ok
        { ch :=
            { withCount ch raw with
              nullCount := true
              phase := if ch.phase = .awaitingReload then .halted else ch.phase }
          calls := [] } := by
  rw [writeData_of_assembled hp h, countWritten_waits (ch := withPairClosed ch) hm, withCount_eq]
  by_cases hawait : ch.phase = .awaitingReload <;> simp [withPairClosed, hawait]

/-- The load of `loadedChannel` in the words of R104. -/
theorem loadedChannel_eq_loaded (now clk : Nat) (ch : Channel) : loadedChannel now clk ch = loaded now clk ch := by
  cases hm : ch.mode <;> simp [loadedChannel, loaded, loadedLevel, firstPeriods, Mode.levelGated, hm]

theorem loadedCalls_eq_loadLevels (m : Mode) : loadedCalls m = loadLevels m := by
  cases m <;> rfl

theorem loadAndArm_eq_loaded (h : ¬(ch.mode = .m3 ∧ eff ch = 1)) :
    loadAndArm now clk ch = .ok { ch := loaded now clk ch, calls := loadLevels ch.mode } := by
  rw [loadAndArm_eq now clk ch h, ← loadedChannel_eq_loaded, ← loadedCalls_eq_loadLevels]
  rfl

theorem writeData_loads (hp : ch.phase ≠ .unprogrammed) (h : assembled ch byte = some raw)
    (hm : ¬(ch.mode = .m1 ∨ ch.mode = .m5)) (hone : ¬(ch.mode = .m3 ∧ eff (withCount ch raw) = 1)) :
    writeData now clk byte ch =
      .ok { ch := loaded now clk (withCount ch raw), calls := loadLevels ch.mode } := by
  rw [withCount_eq] at hone ⊢
  rw [writeData_of_assembled hp h, countWritten_loads (ch := withPairClosed ch) hm, loadAndArm_eq_loaded hone]
  rfl

end CountWrite

theorem exec_writeInstr (c : ChanId) (d : Byte) (s : State) : exec (writeInstr c d) s = busWrite c d s := by
  cases c <;> rfl

/-- R180: what a data-port write leaves, if its channel operation has a result. -/
theorem exec_writeInstr_of_ok {c : ChanId} {d : Byte} {s : State} {x : Drive} (hrun : s.Running)
    (h : writeData s.now (s.params.clkPeriod c) d (s.chan c) = .ok x) :
    exec (writeInstr c d) s =
      .next
        { s.setChan c x.ch with
          pinLog := s.pinLog ++ calls c x.calls s
          replies := s.replies ++ [.wrote s.params.accessLatency] } := by
  rw [exec_writeInstr, busWrite, whileRunning_running hrun, commit_ok h]
  cases c <;> rfl

/-! ## The statements -/

/-- Settles O30: the ten rows are `reservedWrite`, the reserved words are theirs, an idle read-back is a no-op, and an
access records no fatal code. -/
theorem reservedBytesDoNothing : Obligations.ReservedBytesDoNothing := by
  refine ⟨fun low rest s hrun i hi => ?_, reservedWord_encodeWord_iff, fun nc ns k2 k1 k0 s hrun hidle => ?_,
    fun i s t h => ?_⟩
  · rw [exec_of_mem_reservedInstrs hi]
    exact whileRunning_running hrun _
  · have idle {k : Bool} (hk : (k2 = false ∧ k1 = false ∧ k0 = false) → k = false) :
        k = false ∨ (nc = true ∧ ns = true) := hidle.imp_left hk
    change execRdbk nc ns k2 k1 k0 s = _
    rw [execRdbk, whileRunning_running hrun, readBackChannel_of_idle (idle fun h => h.2.2),
      readBackChannel_of_idle (idle fun h => h.2.1), readBackChannel_of_idle (idle fun h => h.1)]
    rfl
  · obtain ⟨reply, haccess, -⟩ := exec_access h
    exact haccess.fatalCode.trans (exec_next_running h)

/-- Settles O34: the completed count is loaded at once, and the load is `loadAndArm`'s one record. -/
theorem writeLoadsInModes0234 : Obligations.WriteLoadsInModes0234 := by
  intro c d raw s hrun hp hraw hm1 hm5 hone
  exact exec_writeInstr_of_ok hrun (writeData_loads hp hraw (not_or_intro hm1 hm5) hone)

/-- Settles O35: in these modes the write stores the count and drives no output. -/
theorem writeWaitsForTheGateInModes15 : Obligations.WriteWaitsForTheGateInModes15 := by
  intro c d raw s hrun hp hraw hm
  rw [exec_writeInstr_of_ok hrun (writeData_waits hp hraw hm)]
  simp [calls]

end Sys2Proof.Machine
end

section
/-! SUPPORT. Programs and loads (spec/40_channel_program_and_load.md R100 to R105, R113, R118): the arithmetic of
counts, the instructions by family, how a step may end, and the count writes that load nothing. -/

namespace Sys2Proof.Machine

open Spec

/-! ## The effective count (R100) -/

theorem eff_of_ne_zero {ch : Channel} (h : ch.countRegister ≠ 0#16) : eff ch = ch.countRegister.toNat := by
  rw [eff, if_neg h]

theorem eff_of_zero_bcd {ch : Channel} (h : ch.countRegister = 0#16) (hf : ch.countFormat = .bcd) :
    eff ch = 10000 := by
  rw [eff, if_pos h, hf]

theorem eff_of_zero_binary {ch : Channel} (h : ch.countRegister = 0#16) (hf : ch.countFormat = .binary) :
    eff ch = 65536 := by
  rw [eff, if_pos h, hf]

theorem eff_le_of_bcd {ch : Channel} (hf : ch.countFormat = .bcd) (h : ch.countRegister.toNat ≤ 9999) :
    eff ch ≤ 10000 := by
  by_cases hz : ch.countRegister = 0#16
  · exact (eff_of_zero_bcd hz hf).le
  · rw [eff_of_ne_zero hz]
    omega

/-! ## BCD (R101, R102) -/

/-- A nibble in plain arithmetic. -/
theorem bcdDigit_eq (raw : BitVec 16) (lo : Nat) : bcdDigit raw lo = min (raw.toNat / 2 ^ lo % 16) 9 := by
  rw [bcdDigit, BitVec.extractLsb'_toNat, Nat.shiftRight_eq_div_pow]

/-- R102: nibble `k` is the decimal digit of weight `10 ^ k`. -/
theorem bcdEncode_nibble {w k : Nat} (hw : w < 10000) (hk : k < 4) :
    ((bcdEncode w).extractLsb' (4 * k) 4).toNat = w / 10 ^ k % 10 := by
  have hnibble : (bcdEncode w).extractLsb' (4 * k) 4 = BitVec.ofNat 4 (w / 10 ^ k % 10) := by
    interval_cases k
    · rw [bcdEncode, BitVec.extractLsb'_append_eq_right]
      simp
    · rw [bcdEncode, BitVec.extractLsb'_append_eq_of_le (by decide), BitVec.extractLsb'_append_eq_right]
      rfl
    · rw [bcdEncode, BitVec.extractLsb'_append_eq_of_le (by decide), BitVec.extractLsb'_append_eq_of_le (by decide),
        BitVec.extractLsb'_append_eq_right]
      rfl
    · rw [bcdEncode, BitVec.extractLsb'_append_eq_of_le (by decide), BitVec.extractLsb'_append_eq_of_le (by decide),
        BitVec.extractLsb'_append_eq_of_le (by decide), Nat.mod_eq_of_lt (by omega)]
      exact BitVec.extractLsb'_eq_self
  rw [hnibble, BitVec.toNat_ofNat]
  omega

theorem bcdDigit_bcdEncode {w k : Nat} (hw : w < 10000) (hk : k < 4) :
    bcdDigit (bcdEncode w) (4 * k) = w / 10 ^ k % 10 := by
  rw [bcdDigit, bcdEncode_nibble hw hk]
  omega

theorem bcdDecode_bcdEncode {w : Nat} (hw : w < 10000) : bcdDecode (bcdEncode w) = w := by
  have digit {k : Nat} (hk : k < 4) := bcdDigit_bcdEncode hw hk
  have h0 : bcdDigit (bcdEncode w) 0 = w % 10 := by simpa using digit (k := 0) (by decide)
  have h1 : bcdDigit (bcdEncode w) 4 = w / 10 % 10 := digit (k := 1) (by decide)
  have h2 : bcdDigit (bcdEncode w) 8 = w / 100 % 10 := digit (k := 2) (by decide)
  have h3 : bcdDigit (bcdEncode w) 12 = w / 1000 % 10 := digit (k := 3) (by decide)
  rw [bcdDecode, h0, h1, h2, h3]
  omega

/-! ## How a step may end (R220 to R225) -/

/-- How a step may end, the call it takes being off the list: no code is recorded, or one of three is and nothing else
changes. -/
inductive Ending (s t : State) : Prop
  | running (h : t.Running)
  | badAccess (address size : Nat) (h : t = { s with fatalCode := some (.badAccess address size) })
  | checkpointMismatch (position : Nat) (h : t = { s with fatalCode := some (.checkpointMismatch position) })
  | checkpointInconsistent (c : ChanId) (h : t = { s with fatalCode := some (.checkpointInconsistent c) })

theorem Ending.ne_doubleArm {s t : State} (h : Ending s t) (c : ChanId) : t.fatalCode ≠ some (.doubleArm c) := by
  cases h with
  | running h => simp [show t.fatalCode = none from h]
  | badAccess _ _ h | checkpointMismatch _ h | checkpointInconsistent _ h => simp [h]

theorem ioAccess_ending {tr : Transaction} {s t : State} (h : ioAccess tr s = .next t) : Ending s t := by
  unfold ioAccess at h
  split at h
  · injection h with h
    exact .badAccess _ _ h.symm
  · obtain ⟨_, haccess, -⟩ := exec_access h
    exact .running (haccess.fatalCode.trans (exec_next_running h))

theorem gateStep_ending {c : ChanId} {level : Bool} {s t : State} (hrun : s.Running)
    (h : gateStep c level s = .next t) : Ending s t := by
  obtain ⟨d, -, rfl⟩ := gateStep_next h
  exact .running ((setChan_fatalCode c d.ch s).trans hrun)

theorem restoreStep_ending {entries : List Entry} {s t : State} (hrun : s.Running)
    (h : restoreStep entries s = .next t) : Ending s t := by
  unfold restoreStep at h
  split at h <;> injection h with h
  · exact .checkpointMismatch _ h.symm
  · subst h
    exact .running hrun

theorem startupStep_ending {s t : State} (hrun : s.Running) (h : startupStep s = .next t) : Ending s t := by
  obtain ⟨-, hs⟩ | ⟨-, c, hs⟩ := startupStep_cases s <;> rw [hs] at h <;> injection h with h
  · subst h
    exact .running hrun
  · exact .checkpointInconsistent c h.symm

theorem takesCall_ending {s t : State} (hrun : s.Running) (h : TakesCall s t) :
    Ending (s.withPending s.pending.tail) t := by
  obtain ⟨u, rest, hp, -, -, rfl⟩ | ⟨tr, rest, hp, -, ht⟩ | ⟨c, level, rest, hp, -, ht⟩ | ⟨rest, hp, -, ht⟩ |
    ⟨entries, rest, hp, ht⟩ | ⟨rest, hp, -, ht⟩ := h <;> rw [hp]
  · exact .running hrun
  · exact ioAccess_ending ht
  · exact gateStep_ending hrun ht
  · injection ht with ht
    subst ht
    exact .running hrun
  · exact restoreStep_ending hrun ht
  · exact startupStep_ending hrun ht

@[simp] theorem expired_fatalCode (a : Nat) (c : ChanId) (d : Drive) (s : State) :
    (expired a c d s).fatalCode = s.fatalCode := by
  simp [expired]

/-- An idle step and an expiry record no code; a call ends as `Ending` says, taken from the list. -/
theorem step_ending {s t : State} (h : step s = .next t) : Ending (s.withPending s.pending.tail) t := by
  obtain ⟨hrun, ⟨-, rfl⟩ | ⟨limit, a, c, d, -, -, -, -, rfl⟩ | htakes⟩ := step_cases h
  · exact .running hrun
  · exact .running ((expired_fatalCode a c d s).trans hrun)
  · exact takesCall_ending hrun htakes

/-! ## Every instruction, by its fields (R81 to R90) -/

/-- The families of the opcode table, each with the fields of its rows. -/
inductive Family : Instr → Prop
  | read (c : ChanId) (d : Byte) : Family (readInstr c d)
  | readControl (d : Byte) : Family (.rdCtl d)
  | write (c : ChanId) (d : Byte) : Family (writeInstr c d)
  | latch (c : ChanId) (low : BitVec 4) : Family (latchInstr c low)
  | program (c : ChanId) (am : AccessMode) (m : Mode) (bcd : Bool) : Family (programInstr c am m bcd)
  | readBack (nc ns k2 k1 k0 : Bool) : Family (.rdbk nc ns k2 k1 k0)
  | reserved {low : BitVec 2} {rest : BitVec 5} {i : Instr} (h : i ∈ reservedInstrs low rest) : Family i

theorem family_decodeControl (d : Byte) : Family (decodeControl d) := by
  by_cases hreserved : reservedByte d = true
  · obtain ⟨low, rest, h⟩ := decodeControl_of_reservedByte hreserved
    exact .reserved h
  by_cases hsc : controlSC d = 3#2
  · rw [reservedByte, if_pos hsc] at hreserved
    rw [decodeControl_of_readBack hsc, decodeReadBack, if_neg hreserved]
    exact .readBack _ _ _ _ _
  by_cases hrw : controlRW d = 0#2
  · rw [decodeControl_of_latch hsc hrw]
    exact .latch _ _
  · have hm : ¬6 ≤ (controlM d).toNat := by simpa [reservedByte, hsc, hrw] using hreserved
    rw [decodeControl_of_program hsc hrw hm]
    exact .program _ _ _ _

theorem family_decodeWord (w : TW) : Family (decodeWord w) := by
  rw [← packWord_of_fields w]
  generalize wordIsWrite w = write, wordAddress w = a, wordPayload w = d
  by_cases ha : a = 3#2
  · subst ha
    cases write
    · rw [decodeWord_readControl]
      exact .readControl d
    · rw [← controlWord, decodeWord_controlWord]
      exact family_decodeControl d
  · cases write
    · rw [decodeWord_read ha]
      exact .read _ _
    · rw [decodeWord_write ha]
      exact .write _ _

theorem family (i : Instr) : Family i := by
  rw [← decodeWord_encodeWord i]
  exact family_decodeWord _

theorem exec_readInstr (c : ChanId) (d : Byte) (s : State) : exec (readInstr c d) s = busRead c s := by
  cases c <;> rfl

theorem exec_latchInstr (c : ChanId) (low : BitVec 4) (s : State) : exec (latchInstr c low) s = busLatch c s := by
  cases c <;> rfl

theorem exec_programInstr (c : ChanId) (am : AccessMode) (m : Mode) (bcd : Bool) (s : State) :
    exec (programInstr c am m bcd) s = busProgram c am m bcd s := by
  cases c <;> cases am <;> cases m <;> rfl

/-! ## A channel that is not programmed (R105, R113) -/

section Unprogrammed

variable {now clk : Nat} {ch : Channel}

theorem writeData_of_unprogrammed (hp : ch.phase = .unprogrammed) (byte : Byte) :
    writeData now clk byte ch = .ok { ch := ch, calls := [] } := by
  rw [writeData, if_pos hp]

theorem readData_phase (free : Byte) : (readData now clk free ch).1.phase = ch.phase := by
  obtain ⟨_, _, _, h⟩ := readData_frame now clk free ch
  rw [h]

theorem latchCount_phase : (latchCount now clk ch).phase = ch.phase := by
  obtain ⟨_, _, h⟩ := latchCount_frame now clk ch
  rw [h]

theorem readBack_phase (nc ns k : Bool) : (readBack nc ns k now clk ch).phase = ch.phase := by
  obtain ⟨_, _, _, _, h⟩ := readBack_frame nc ns k now clk ch
  rw [h]

end Unprogrammed

/-- An operation of channel `c` alone that leaves it `Unprogrammed` leaves every channel so. -/
theorem unprogrammed_of_chan {c c' : ChanId} {x : Channel} {s t : State}
    (h : t.chan c' = if c' = c then x else s.chan c') (hp : (s.chan c').phase = .unprogrammed)
    (hx : (s.chan c).phase = .unprogrammed → x.phase = .unprogrammed) : (t.chan c').phase = .unprogrammed := by
  rw [h]
  split
  · subst c'
    exact hx hp
  · exact hp

/-- R105: what an instruction leaves of an `Unprogrammed` channel is `Unprogrammed`, or it is that channel's program. -/
theorem unprogrammed_or_program {i : Instr} {s t : State} {c : ChanId} (h : exec i s = .next t)
    (hp : (s.chan c).phase = .unprogrammed) :
    (t.chan c).phase = .unprogrammed ∨ ∃ am m bcd, i = programInstr c am m bcd := by
  cases family i with
  | read c' d =>
    rw [exec_readInstr] at h
    exact .inl (unprogrammed_of_chan (busRead_chan h c) hp (readData_phase _).trans)
  | readControl d =>
    rw [execRdCtl_chan (d := d) h]
    exact .inl hp
  | write c' d =>
    rw [exec_writeInstr] at h
    obtain ⟨x, hx, hchan⟩ := busWrite_chan h
    refine .inl (unprogrammed_of_chan (hchan c) hp fun hp' => ?_)
    rw [writeData_of_unprogrammed hp'] at hx
    injection hx with hx
    rw [← hx]
    exact hp'
  | latch c' low =>
    rw [exec_latchInstr] at h
    exact .inl (unprogrammed_of_chan (busLatch_chan h c) hp latchCount_phase.trans)
  | program c' am m bcd =>
    rw [exec_programInstr] at h
    have hchan := busProgram_chan h c
    split at hchan
    · subst c'
      exact .inr ⟨am, m, bcd, rfl⟩
    · rw [hchan]
      exact .inl hp
  | readBack nc ns k2 k1 k0 =>
    rw [execRdbk_chan h]
    exact .inl ((readBack_phase _ _ _).trans hp)
  | reserved hi =>
    rw [exec_of_mem_reservedInstrs hi] at h
    rw [reservedWrite_chan h]
    exact .inl hp

/-! ## Programs and count writes -/

theorem programLevel_eq (m : Mode) : programLevel m = if m = .m0 then false else true := by
  cases m <;> rfl

/-- R180, R181: what a mode program leaves. -/
theorem exec_programInstr_of_running {s : State} (hrun : s.Running) (c : ChanId) (am : AccessMode) (m : Mode)
    (bcd : Bool) :
    let d := program am m bcd (Config.freeCount s.draws).val (s.chan c)
    exec (programInstr c am m bcd) s =
      .next
        { s.setChan c d.ch with
          pinLog := s.pinLog ++ calls c d.calls s
          replies := s.replies ++ [.wrote s.params.accessLatency]
          draws := s.draws + 1 } := by
  rw [exec_programInstr, busProgram, whileRunning_running hrun, commit_ok rfl]
  cases c <;> rfl

/-- R113: the first byte of a pair is held. -/
theorem writeData_firstByte {now clk : Nat} {ch : Channel} (hp : ch.phase ≠ .unprogrammed)
    (ham : ch.accessMode = .lowHigh) (hhalf : ch.writeHalf = .low) (byte : Byte) :
    writeData now clk byte ch = .ok { ch := { ch with writeLow := byte, writeHalf := .high }, calls := [] } := by
  simp only [writeData, if_neg hp, ham, hhalf]

/-- R118: the completed count is handed to a load, which refuses it. -/
theorem writeData_refused {now clk : Nat} {ch : Channel} {byte : Byte} {raw : BitVec 16}
    (hp : ch.phase ≠ .unprogrammed) (h : assembled ch byte = some raw) (hm : ch.mode = .m3)
    (hone : eff (withCount ch raw) = 1) : writeData now clk byte ch = .error .squareWaveCountOne := by
  have hloads : ¬(ch.mode = .m1 ∨ ch.mode = .m5) := by simp [hm]
  rw [withCount_eq] at hone
  rw [writeData_of_assembled hp h, countWritten_loads (ch := withPairClosed ch) hloads]
  exact loadAndArm_refused ⟨hm, hone⟩

/-! ## The statements -/

/-- Settles O14: no operation of a channel arms twice (`writeData_ne_doubleArm`, `setGate_ne_doubleArm`, `expiry_ok`), so
that a step ends with one of three other codes or none. -/
theorem doubleArmIsUnreachable : Obligations.DoubleArmIsUnreachable :=
  fun _ _ c h => (step_ending h).ne_doubleArm c

/-- Settles O21: the binary encoding truncates, and the BCD one is digit by digit. -/
theorem encodedCount : Obligations.EncodedCount := by
  intro v
  have hv : v % 10000 < 10000 := Nat.mod_lt _ (by decide)
  exact ⟨BitVec.toNat_ofNat v 16, fun k hk => bcdEncode_nibble hv hk, bcdDecode_bcdEncode hv⟩

/-- Settles O32: of the families of instructions only a mode program writes the phase of an `Unprogrammed` channel. -/
theorem onlyAModeProgramLeavesUnprogrammed : Obligations.OnlyAModeProgramLeavesUnprogrammed :=
  fun _ _ _ _ h hp hleaves => (unprogrammed_or_program h hp).resolve_left hleaves

/-- Settles O19: the three clauses of R100 and the bounds they give. -/
theorem effectiveCount : Obligations.EffectiveCount :=
  fun ch => ⟨eff_of_ne_zero, eff_of_zero_bcd, eff_of_zero_binary, eff_pos ch, eff_le ch, eff_le_of_bcd⟩

/-- Settles O20: each digit is a nibble in plain arithmetic, the top one with nothing above it. -/
theorem bcdDecodeClampsDigits : Obligations.BcdDecodeClampsDigits := by
  intro raw
  have htop : raw.toNat / 4096 % 16 = raw.toNat / 4096 := by
    have := raw.isLt
    omega
  refine ⟨?_, bcdDecode_le raw⟩
  simp only [bcdDecode, bcdDigit_eq, Nat.reducePow, htop, Nat.div_one]

/-- Settles O31: the free count is at most 65536, and the rest is `program`'s one record. -/
theorem programChannel : Obligations.ProgramChannel := by
  intro c am m bcd s hrun
  refine ⟨(Config.freeCount s.draws).val, s.draws + 1, Nat.le_of_lt_succ (Config.freeCount s.draws).isLt, ?_⟩
  rw [exec_programInstr_of_running hrun, ← programLevel_eq]
  rfl

/-- Settles O33: in both cases the write drives no output, and an `Unprogrammed` channel is written back as it was. -/
theorem writeWithoutACompleteCount : Obligations.WriteWithoutACompleteCount := by
  intro c d s hrun
  refine ⟨fun hp => ?_, fun hp ham hhalf => ?_⟩
  · rw [exec_writeInstr_of_ok hrun (writeData_of_unprogrammed hp d)]
    simp [calls]
  · rw [exec_writeInstr_of_ok hrun (writeData_firstByte hp ham hhalf d)]
    simp [calls]

/-- Settles O36: the load refuses, and so does the access it belongs to. -/
theorem squareWaveCountOneIsRefused : Obligations.SquareWaveCountOneIsRefused := by
  intro c d raw s hrun hp hraw hm hone
  rw [exec_writeInstr, busWrite, whileRunning_running hrun, writeData_refused hp hraw hm hone]
  rfl

end Sys2Proof.Machine
end

section
/-! SUPPORT. Data-port reads and the latches (spec/41_channel_read_and_latch.md R130 to R142): the live count of a run,
what a read and a latch command make of one channel, case by case, and the whole state each access leaves. -/

namespace Sys2Proof.Machine

open Spec

section OneChannel

variable {now clk : Nat} {ch : Channel}

/-! ## The live count (R130) -/

theorem live_of_disarmed (h : ch.armedUntilTick = none) : live now clk ch = ch.currentCount := by
  simp only [live, h]

/-- `k` whole periods and `j` ticks into a run of `m` periods, `m - k` of them and the low half are to come. -/
theorem live_of_run {start m k j : Nat} (hj : j < clk) (hk : k < m)
    (h : ch.armedUntilTick = some (start + m * clk)) :
    live (start + k * clk + j) clk ch = m - k + lowHalfToCome ch := by
  simp only [live, h]
  rw [Nat.add_assoc start, Nat.add_sub_add_left, ceilDiv_periods hj hk]

theorem lowHalfToCome_eq_zero (h : ch.mode ≠ .m3 ∨ ch.outputLevel = false) : lowHalfToCome ch = 0 :=
  h.elim lowHalfToCome_other lowHalfToCome_low

/-! ## A read of one channel (R132) -/

theorem readData_of_unprogrammed (hp : ch.phase = .unprogrammed) (free : Byte) :
    readData now clk free ch = (ch, free) := by
  rw [readData, if_pos hp]

theorem readData_of_statusLatched (hp : ch.phase ≠ .unprogrammed) (hsl : ch.statusLatched = true) (free : Byte) :
    readData now clk free ch = ({ ch with statusLatched := false }, ch.latchedStatus) := by
  rw [readData, if_neg hp, if_pos hsl]

theorem readData_of_count (hp : ch.phase ≠ .unprogrammed) (hsl : ch.statusLatched = false) (free : Byte) :
    readData now clk free ch = (countRead ch, byteOf ch.accessMode ch.readHalf (visibleCount now clk ch)) := by
  rw [readData, if_neg hp, if_neg (by simp [hsl])]

/-- In `LowHigh` the half toggles; every read but that of the low half releases the count latch. -/
theorem countRead_eq (ch : Channel) :
    countRead ch =
      { ch with
        readHalf := if ch.accessMode = .lowHigh then (if ch.readHalf = .low then .high else .low) else ch.readHalf
        latched := if ch.accessMode = .lowHigh ∧ ch.readHalf = .low then ch.latched else false } := by
  unfold countRead
  split <;> simp [*]

/-- The byte of a count is its high byte in `HighOnly` and in the high half of `LowHigh`, else its low byte. -/
theorem byteOf_eq (am : AccessMode) (half : Half) (v : BitVec 16) :
    byteOf am half v =
      if am = .highOnly ∨ (am = .lowHigh ∧ half = .high) then v.extractLsb' 8 8 else v.extractLsb' 0 8 := by
  cases am <;> cases half <;> rfl

theorem drawnByRead_of_programmed (hp : ch.phase ≠ .unprogrammed) (s : State) : drawnByRead ch s = s := by
  unfold drawnByRead
  split
  · exact absurd ‹_› hp
  all_goals rfl

/-! ## The latches of one channel (R137, R141, R142) -/

/-- R137: the first latch wins, and an `Unprogrammed` channel takes none. -/
theorem latchCount_of_kept (h : ch.phase = .unprogrammed ∨ ch.latched = true) : latchCount now clk ch = ch := by
  unfold latchCount
  split
  · rfl
  · rw [if_pos (h.resolve_left ‹_›)]

theorem latchCount_of_taken (hp : ch.phase ≠ .unprogrammed) (hl : ch.latched = false) :
    latchCount now clk ch =
      { ch with latchedValue := enc ch.countFormat (live now clk ch), latched := true } := by
  rw [latchCount, if_neg hp, if_neg (by simp [hl])]

/-- After a counter-latch command the channel holds a latch or takes none. -/
theorem latchCount_unprogrammed_or_latched (now clk : Nat) (ch : Channel) :
    (latchCount now clk ch).phase = .unprogrammed ∨ (latchCount now clk ch).latched = true := by
  by_cases h : ch.phase = .unprogrammed ∨ ch.latched = true
  · rwa [latchCount_of_kept h]
  · obtain ⟨hp, hl⟩ := not_or.1 h
    rw [latchCount_of_taken hp (by simpa using hl)]
    exact .inr rfl

/-- A read-back of the status alone is the status latch, whatever the tick. -/
theorem latchStatus_eq_readBackOf (now clk : Nat) (ch : Channel) :
    latchStatus ch = readBackOf true false true now clk ch := by
  cases ch
  unfold latchStatus
  split
  · simp_all [readBackOf]
  · split <;> simp_all [readBackOf]

/-- A read-back of the count alone is the count latch. -/
theorem latchCount_eq_readBackOf (now clk : Nat) (ch : Channel) :
    latchCount now clk ch = readBackOf false true true now clk ch := by
  cases ch
  unfold latchCount
  split
  · simp_all [readBackOf]
  · split <;> simp_all [readBackOf]

theorem readBackOf_idle {nc ns k : Bool} (h : k = false ∨ (nc = true ∧ ns = true)) (now clk : Nat) (ch : Channel) :
    readBackOf nc ns k now clk ch = ch := by
  obtain rfl | ⟨rfl, rfl⟩ := h <;> simp [readBackOf]

theorem live_withStatusLatch (now clk : Nat) (ch : Channel) (sv : Byte) (sl : Bool) :
    live now clk { ch with latchedStatus := sv, statusLatched := sl } = live now clk ch := rfl

/-- The status latch leaves what the count latch reads: the phase, the count latch and the live count. -/
theorem readBackOf_count_after_status (now clk : Nat) (ch : Channel) :
    readBackOf false true true now clk (readBackOf true false true now clk ch) =
      readBackOf false false true now clk ch := by
  simp [readBackOf, live_withStatusLatch]

/-- R142: taking the status, then the count, is taking both as of one tick. -/
theorem readBack_eq_readBackOf (nc ns k : Bool) (now clk : Nat) (ch : Channel) :
    readBack nc ns k now clk ch = readBackOf nc ns k now clk ch := by
  cases k
  · exact (readBackOf_idle (.inl rfl) now clk ch).symm
  cases ns <;> cases nc
  · change latchCount now clk (latchStatus ch) = _
    rw [latchStatus_eq_readBackOf now clk, latchCount_eq_readBackOf, readBackOf_count_after_status]
  · exact latchStatus_eq_readBackOf now clk ch
  · exact latchCount_eq_readBackOf now clk ch
  · exact (readBackOf_idle (.inr ⟨rfl, rfl⟩) now clk ch).symm

end OneChannel

/-! ## The state an access leaves (R180) -/

theorem setChan_replyRead (c : ChanId) (x : Channel) (b : Byte) (s : State) :
    (s.setChan c x).replyRead b =
      { s.setChan c x with replies := s.replies ++ [.read b s.params.accessLatency] } := by
  cases c <;> rfl

theorem setChan_replyWrote (c : ChanId) (x : Channel) (s : State) :
    (s.setChan c x).replyWrote =
      { s.setChan c x with replies := s.replies ++ [.wrote s.params.accessLatency] } := by
  cases c <;> rfl

section Running

variable {s : State} (hrun : s.Running)
include hrun

/-- A data-port read, by what `readData` answers. -/
theorem exec_readInstr_of_readData {c : ChanId} {x : Channel} {b : Byte} (d : Byte)
    (h : readData s.now (s.params.clkPeriod c) (Config.freeByte s.draws) (s.chan c) = (x, b)) :
    exec (readInstr c d) s =
      .next
        (drawnByRead (s.chan c)
          { s.setChan c x with replies := s.replies ++ [.read b s.params.accessLatency] }) := by
  rw [exec_readInstr, busRead, whileRunning_running hrun, h, setChan_replyRead]

theorem exec_latchInstr_of_running (c : ChanId) (low : BitVec 4) :
    exec (latchInstr c low) s =
      .next
        { s.setChan c (latchCount s.now (s.params.clkPeriod c) (s.chan c)) with
          replies := s.replies ++ [.wrote s.params.accessLatency] } := by
  rw [exec_latchInstr, busLatch, whileRunning_running hrun, setChan_replyWrote]

/-- A read-back command treats each channel by its own select bit, at the tick of the access. -/
theorem exec_rdbk_of_running (nc ns k2 k1 k0 : Bool) :
    exec (.rdbk nc ns k2 k1 k0) s =
      .next
        { s with
          ch0 := readBack nc ns k0 s.now s.params.clkPeriod0 s.ch0
          ch1 := readBack nc ns k1 s.now s.params.clkPeriod1 s.ch1
          ch2 := readBack nc ns k2 s.now s.params.clkPeriod2 s.ch2
          replies := s.replies ++ [.wrote s.params.accessLatency] } :=
  whileRunning_running hrun _

end Running

theorem encodeWord_rdCtl (d : Byte) : encodeWord (.rdCtl d) = 0b011#3 ++ d := rfl

theorem encodeWord_rdbk (nc ns k2 k1 k0 : Bool) :
    encodeWord (.rdbk nc ns k2 k1 k0) =
      0b11111#5 ++ BitVec.ofBool nc ++ BitVec.ofBool ns ++ BitVec.ofBool k2 ++ BitVec.ofBool k1 ++ BitVec.ofBool k0 ++
        0#1 := by
  decide +revert

/-! ## The statements -/

/-- Settles O22: the pending event is `m` periods after the start, and `live_of_run` counts those still to come; in the
high half of mode 3 the low half's `Eff / 2` make up the full period. -/
theorem liveCountsDownByPeriods : Obligations.LiveCountsDownByPeriods := by
  intro ch start clk k j hj
  refine ⟨live_of_disarmed, fun n hlow hk ha => ?_, fun hm ho hk ha => ?_⟩
  · rw [live_of_run hj hk ha, lowHalfToCome_eq_zero hlow, Nat.add_zero]
  · rw [live_of_run hj hk ha, lowHalfToCome_high hm ho]
    omega

/-- Settles O28: the first command leaves a latch or an `Unprogrammed` channel, and either makes the second keep the
channel. -/
theorem secondLatchIsANoOp : Obligations.SecondLatchIsANoOp := by
  intro c x y s t u v hfirst hlatched hphase hsecond
  rw [exec_latchInstr] at hfirst hsecond
  have ht := busLatch_chan hfirst c
  rw [if_pos rfl] at ht
  have hkept : (u.chan c).phase = .unprogrammed ∨ (u.chan c).latched = true := by
    rw [hphase, hlatched, ht]
    exact latchCount_unprogrammed_or_latched _ _ _
  rw [busLatch_chan hsecond, if_pos rfl, latchCount_of_kept hkept]

/-- Settles O24: the three cases of R132, of which only the first draws a value. -/
theorem readDataPort : Obligations.ReadDataPort := by
  intro c d s hrun
  refine ⟨fun hp => ⟨Config.freeByte s.draws, s.draws + 1, ?_⟩, fun hp hsl => ?_, fun hp hsl => ?_⟩
  · rw [exec_readInstr_of_readData hrun d (readData_of_unprogrammed hp _), setChan_self, drawnByRead, hp]
    rfl
  · rw [exec_readInstr_of_readData hrun d (readData_of_statusLatched hp hsl _), drawnByRead_of_programmed hp]
  · rw [exec_readInstr_of_readData hrun d (readData_of_count hp hsl _), drawnByRead_of_programmed hp, countRead_eq,
      byteOf_eq, visibleCount]

/-- Settles O25: the read replies with a free value and draws it. -/
theorem readControlPort : Obligations.ReadControlPort :=
  fun d => ⟨encodeWord_rdCtl d, fun s hrun =>
    ⟨Config.freeByte s.draws, s.draws + 1, whileRunning_running hrun _⟩⟩

/-- Settles O27: a kept latch writes the channel back as it was. -/
theorem latchCountCommand : Obligations.LatchCountCommand := by
  intro c ignored s hrun
  refine ⟨fun hkept => ?_, fun hp hl => ?_⟩
  · rw [exec_latchInstr_of_running hrun, latchCount_of_kept hkept, setChan_self]
  · rw [exec_latchInstr_of_running hrun, latchCount_of_taken hp hl]

/-- Settles O29: channel by channel, the status latch followed by the count latch is the rule's one record. -/
theorem readBackCommand : Obligations.ReadBackCommand := by
  intro nc ns k2 k1 k0
  refine ⟨encodeWord_rdbk nc ns k2 k1 k0, fun s hrun => ?_⟩
  simp only [exec_rdbk_of_running hrun, readBack_eq_readBackOf]

end Sys2Proof.Machine
end

section
/-! SUPPORT. Time and expiry (spec/42_channel_expiry_modes.md R150 to R157): a step of an `Advance`, read forwards, the
end of its loop, and the runs of a channel that counts alone. -/

namespace Sys2Proof.Machine

/-! ## A step of an `Advance` (R150) -/

/-- Time moves to `tick`, and of the channels only `c` changes, to `x`; `log` is added to the pin log. -/
def State.movedTo (c : ChanId) (x : Channel) (tick : Nat) (log : List PinCall) (s : State) : State :=
  { s.setChan c x with now := tick, pinLog := s.pinLog ++ log }

section MovedTo

variable (c : ChanId) (x : Channel) (tick : Nat) (log : List PinCall) (s : State)

theorem movedTo_chan (c' : ChanId) : (s.movedTo c x tick log).chan c' = if c' = c then x else s.chan c' := by
  rw [← chan_setChan]
  cases c' <;> rfl

@[simp] theorem movedTo_chan_same : (s.movedTo c x tick log).chan c = x := by
  rw [movedTo_chan, if_pos rfl]
@[simp] theorem movedTo_params : (s.movedTo c x tick log).params = s.params := setChan_params c x s
@[simp] theorem movedTo_fatalCode : (s.movedTo c x tick log).fatalCode = s.fatalCode := setChan_fatalCode c x s
@[simp] theorem movedTo_pending : (s.movedTo c x tick log).pending = s.pending := setChan_pending c x s
@[simp] theorem movedTo_now : (s.movedTo c x tick log).now = tick := rfl

variable {c x tick log s} in
theorem movedTo_running (h : s.Running) : (s.movedTo c x tick log).Running := (movedTo_fatalCode c x tick log s).trans h

theorem movedTo_self : s.movedTo c (s.chan c) s.now [] = s := by
  simp [State.movedTo]

theorem movedTo_movedTo (y : Channel) (tick' : Nat) (log' : List PinCall) :
    (s.movedTo c x tick log).movedTo c y tick' log' = s.movedTo c y tick' (log ++ log') := by
  cases c <;> simp [State.movedTo, State.setChan]

end MovedTo

theorem step_advance {s : State} {t : Nat} {rest : List Input} (hrun : s.Running)
    (hp : s.pending = .advance t :: rest) : step s = advanceStep t rest s := by
  simp only [step, takeStep, whileRunning_running hrun, hp]

/-- Settles O8: with nothing due the step is the end of the loop. -/
theorem advanceMovesTime : Obligations.AdvanceMovesTime := by
  intro s t rest hrun hp hle hdue
  rw [step_advance hrun hp, advanceStep, if_neg (Nat.not_lt.2 hle), hdue]

/-- With an event due the step is its expiry. -/
theorem step_of_expires {a t : Nat} {c : ChanId} {rest : List Input} {s : State} (h : Spec.Expires a c t rest s)
    {d : Drive} (hd : expiry a (s.params.clkPeriod c) (s.chan c) = .ok d) :
    step s = .next (s.movedTo c d.ch a (Spec.calls c d.calls { s with now := a })) := by
  obtain ⟨hrun, hp, hle, hdue, ha⟩ := h
  rw [step_advance hrun hp, advanceStep, if_neg (Nat.not_lt.2 hle), hdue]
  exact (expireStep_of_le ha hd).trans (congrArg _ (expired_eq a c d s))

/-! ## An expiry, mode by mode (R152 to R157) -/

section Expiry

variable {a clk : Nat} {ch : Channel}

theorem expiry_oneShot (h : ch.mode = .m0 ∨ ch.mode = .m1) :
    expiry a clk ch =
      .ok
        { ch := { ch with currentCount := 0, outputLevel := true, phase := .halted, armedUntilTick := none }
          calls := [true] } := by
  obtain h | h := h <;> simp only [expiry, h, expiryMode0, expiryMode1, endOneShot_eq]

theorem expiry_strobe (h : ch.mode = .m4 ∨ ch.mode = .m5) :
    expiry a clk ch =
      .ok
        { ch := { ch with currentCount := 0, outputLevel := true, phase := .halted, armedUntilTick := none }
          calls := [false, true] } := by
  obtain h | h := h <;> simp only [expiry, h, expiryMode4, expiryMode5, endStrobe_eq]

theorem expiry_rateGenerator (h : ch.mode = .m2) :
    expiry a clk ch =
      .ok
        { ch := { ch with outputLevel := true, currentCount := eff ch, armedUntilTick := some (a + eff ch * clk) }
          calls := [false, true] } := by
  simp only [expiry, h, expiryMode2_eq]

theorem expiry_squareWave_high (h : ch.mode = .m3) (hout : ch.outputLevel = true) :
    expiry a clk ch =
      .ok
        { ch :=
            { ch with
              outputLevel := false
              currentCount := eff ch / 2
              armedUntilTick := some (a + eff ch / 2 * clk) }
          calls := [false] } := by
  simp only [expiry, h, expiryMode3_eq, hout, if_true, Bool.not_true]

theorem expiry_squareWave_low (h : ch.mode = .m3) (hout : ch.outputLevel = false) :
    expiry a clk ch =
      .ok
        { ch :=
            { ch with
              outputLevel := true
              currentCount := eff ch
              armedUntilTick := some (a + (eff ch + 1) / 2 * clk) }
          calls := [true] } := by
  simp only [expiry, h, expiryMode3_eq, hout, Bool.false_eq_true, if_false, Bool.not_false]

end Expiry

/-! ## The loop of an `Advance` ends (R150) -/

/-- How many expiries of the channel there can be by `t`, each at a later tick than the one before. -/
def Channel.firingsBy (t : Nat) (ch : Channel) : Nat :=
  match ch.armedUntilTick with
  | none => 0
  | some a => t + 1 - a

/-- How many expiries of the three channels there can be by `t`. -/
def State.firingsBy (t : Nat) (s : State) : Nat :=
  (s.chan .c0).firingsBy t + (s.chan .c1).firingsBy t + (s.chan .c2).firingsBy t

theorem firingsBy_of_disarmed {t : Nat} {ch : Channel} (h : ch.armedUntilTick = none) : ch.firingsBy t = 0 := by
  simp only [Channel.firingsBy, h]

theorem firingsBy_of_armed {t a : Nat} {ch : Channel} (h : ch.armedUntilTick = some a) :
    ch.firingsBy t = t + 1 - a := by
  simp only [Channel.firingsBy, h]

theorem firingsBy_le {t now : Nat} {ch : Channel} (h : ch.NotStale now) : ch.firingsBy t ≤ t + 1 - now := by
  cases ha : ch.armedUntilTick with
  | none =>
    rw [firingsBy_of_disarmed ha]
    exact Nat.zero_le _
  | some a =>
    rw [firingsBy_of_armed ha]
    have := h a ha
    omega

theorem state_firingsBy_le {t : Nat} {s : State} (h : s.NoStaleEvent) : s.firingsBy t ≤ 3 * (t + 1 - s.now) := by
  have hle (c : ChanId) : (s.chan c).firingsBy t ≤ t + 1 - s.now := firingsBy_le (h c)
  have := hle .c0
  have := hle .c1
  have := hle .c2
  unfold State.firingsBy
  omega

theorem state_firingsBy_lt {t : Nat} {c : ChanId} {s u : State} (hc : (u.chan c).firingsBy t < (s.chan c).firingsBy t)
    (hothers : ∀ c', (u.chan c').firingsBy t ≤ (s.chan c').firingsBy t) : u.firingsBy t < s.firingsBy t := by
  have := hothers .c0
  have := hothers .c1
  have := hothers .c2
  unfold State.firingsBy
  cases c <;> omega

/-- An expiry of a sound channel leaves it disarmed or armed later: counts are at least 1, and in mode 3 at least 2 by
(I9), so that neither half is empty. -/
theorem expiry_rearms_later {now a clk : Nat} {ch : Channel} {d : Drive} (hclk : 1 ≤ clk) (hinv : ch.Inv now clk)
    (ha : ch.armedUntilTick = some a) (hd : expiry a clk ch = .ok d) : ∀ b ∈ d.ch.armedUntilTick, a < b := by
  have later {n : Nat} (hn : 1 ≤ n) : ∀ b ∈ some (a + n * clk), a < b := by
    intro b hb
    rw [Option.mem_some_iff] at hb
    have := Nat.mul_pos hn hclk
    omega
  obtain ⟨-, -, hch⟩ | ⟨-, hch⟩ | ⟨hm, hch⟩ := expiry_cases hd <;> rw [hch]
  · simp
  · exact later (eff_pos ch)
  · obtain ⟨-, hloaded, -⟩ := (inv_iff_of_armed ha).1 hinv
    have htwo := hloaded.square hm
    refine later ?_
    split <;> omega

theorem expiry_firingsBy_lt {now a clk t : Nat} {ch : Channel} {d : Drive} (hclk : 1 ≤ clk) (hinv : ch.Inv now clk)
    (ha : ch.armedUntilTick = some a) (hle : a ≤ t) (hd : expiry a clk ch = .ok d) :
    d.ch.firingsBy t < ch.firingsBy t := by
  have hlater : d.ch.NotStale (a + 1) := expiry_rearms_later hclk hinv ha hd
  have := firingsBy_le (t := t) hlater
  rw [firingsBy_of_armed ha]
  omega

/-- In the loop of an `Advance(t)`: the call is pending, and the invariants hold. -/
structure Advancing (t : Nat) (rest : List Input) (s : State) : Prop where
  inv : s.Inv
  notStale : s.NoStaleEvent
  running : s.Running
  pending : s.pending = .advance t :: rest
  le : s.now ≤ t

/-- One turn of the loop stays in it, and leaves fewer expiries to come. -/
theorem Advancing.turn {t a : Nat} {c : ChanId} {rest : List Input} {s : State} (h : Advancing t rest s)
    (hdue : nextDue t s = some (a, c)) :
    ∃ u, step s = .next u ∧ Advancing t rest u ∧ u.firingsBy t < s.firingsBy t := by
  obtain ⟨hinv, hstale, hrun, hp, hle⟩ := h
  obtain ⟨harmed, hat⟩ := nextDue_some hdue
  obtain ⟨d, hd⟩ := expiry_ok a (s.params.clkPeriod c) (s.chan c)
  have hstep := step_of_expires ⟨hrun, hp, hle, hdue, hstale c a harmed⟩ hd
  have hkept := noEventInThePast s _ hstale (by simp [hp]) hstep
  refine ⟨_, hstep,
    ⟨invariantsKeptByEveryStep s _ hinv hstep, hkept, movedTo_running hrun, by simpa using hp, hat⟩, ?_⟩
  obtain ⟨hvalid, hchan, -⟩ := state_inv_iff.1 hinv
  have hlt := expiry_firingsBy_lt (params_valid_iff.1 hvalid c) (hchan c) harmed hat hd
  refine state_firingsBy_lt (c := c) (by simpa using hlt) fun c' => ?_
  rw [movedTo_chan]
  split
  · subst c'
    exact hlt.le
  · exact le_rfl

/-! ## Runs -/

theorem run_succ {s u : State} (h : step s = .next u) (n : Nat) :
    Sys2Proof.core.run (n + 1) s = Sys2Proof.core.run n u := by
  have h : Sys2Proof.core.step s = .next u := h
  simp only [Host.Core.run, h]

theorem run_one {s u : State} (h : step s = .next u) : Sys2Proof.core.run 1 s = .next u := run_succ h 0

/-- A run of `m + n` steps is a run of `m` and one of `n` from where it ends. -/
theorem run_add {m : Nat} {s u : State} (h : Sys2Proof.core.run m s = .next u) (n : Nat) :
    Sys2Proof.core.run (m + n) s = Sys2Proof.core.run n u := by
  induction m generalizing s with
  | zero =>
    injection h with h
    rw [h, Nat.zero_add]
  | succ m ih =>
    cases hstep : Sys2Proof.core.step s with
    | next v =>
      rw [run_succ hstep] at h
      rw [Nat.succ_add, run_succ hstep, ih h]
    | fault | refused => simp [Host.Core.run, hstep] at h

/-- `k` rounds of `m` steps each, by the states between them. -/
theorem run_rounds {m k : Nat} {states : Nat → State}
    (h : ∀ j < k, Sys2Proof.core.run m (states j) = .next (states (j + 1))) :
    Sys2Proof.core.run (m * k) (states 0) = .next (states k) := by
  induction k with
  | zero => rfl
  | succ k ih =>
    rw [Nat.mul_succ, run_add (ih fun j hj => h j (by omega))]
    exact h k (Nat.lt_succ_self k)

/-- The loop ends: the expiries that can come by `t` bound its turns. -/
theorem Advancing.ends {t : Nat} {rest : List Input} {s : State} (h : Advancing t rest s) :
    ∃ (n : Nat) (u : State),
      n ≤ s.firingsBy t + 1 ∧ Sys2Proof.core.run n s = .next u ∧ u.Running ∧ u.now = t ∧ u.pending = rest ∧
        ∀ c, ∀ a ∈ (u.chan c).armedUntilTick, t < a := by
  induction hm : s.firingsBy t using Nat.strong_induction_on generalizing s with
  | h m ih =>
    cases hdue : nextDue t s with
    | none =>
      refine ⟨1, _, Nat.le_add_left 1 m, run_one (advanceMovesTime s t rest h.running h.pending h.le hdue), h.running,
        rfl, rfl, fun c => ?_⟩
      have hafter := nextDue_none hdue c
      cases c <;> exact hafter
    | some p =>
      obtain ⟨u, hstep, hu, hlt⟩ := h.turn (a := p.1) (c := p.2) hdue
      obtain ⟨n, v, hn, hv, hend⟩ := ih _ (hm ▸ hlt) hu rfl
      exact ⟨n + 1, v, by omega, (run_succ hstep n).trans hv, hend⟩

/-! ## A channel that counts alone (R154, R155) -/

/-- The pin calls depend on the parameters and the tick alone. -/
theorem calls_movedTo (c : ChanId) (levels : List Bool) (x : Channel) (tick tick' : Nat) (log : List PinCall)
    (s : State) :
    Spec.calls c levels { s.movedTo c x tick log with now := tick' } = Spec.calls c levels { s with now := tick' } := by
  simp only [Spec.calls, movedTo_params]

section Periodic

variable {a clk : Nat} {ch : Channel}

/-- Writing the output and the count that a channel holds leaves only the new event. -/
theorem withReload_eq {out : Bool} {n : Nat} (hout : ch.outputLevel = out) (hcount : ch.currentCount = n)
    (armed : Option Nat) :
    { ch with outputLevel := out, currentCount := n, armedUntilTick := armed } =
      { ch with armedUntilTick := armed } := by
  subst hout hcount
  rfl

variable (hout : ch.outputLevel = true) (hcount : ch.currentCount = eff ch)
include hout hcount

/-- The reload at the end of a mode 2 period leaves the channel as it was loaded. -/
theorem expiry_endOfPulsePeriod (hm : ch.mode = .m2) (armed : Option Nat) :
    expiry a clk { ch with armedUntilTick := armed } =
      .ok { ch := { ch with armedUntilTick := some (a + eff ch * clk) }, calls := [false, true] } := by
  rw [← withReload_eq hout hcount (some (a + eff ch * clk))]
  exact expiry_rateGenerator (ch := { ch with armedUntilTick := armed }) hm

/-- The end of the low half of a mode 3 period leaves the channel as it was loaded. -/
theorem expiry_endOfSquarePeriod (hm : ch.mode = .m3) (n : Nat) (armed : Option Nat) :
    expiry a clk { ch with outputLevel := false, currentCount := n, armedUntilTick := armed } =
      .ok { ch := { ch with armedUntilTick := some (a + (eff ch + 1) / 2 * clk) }, calls := [true] } := by
  rw [← withReload_eq hout hcount (some (a + (eff ch + 1) / 2 * clk))]
  exact expiry_squareWave_low
    (ch := { ch with outputLevel := false, currentCount := n, armedUntilTick := armed }) hm rfl

end Periodic

section Alone

variable {t : Nat} {c : ChanId} {rest : List Input} {s : State} (hrun : s.Running)
  (hp : s.pending = .advance t :: rest) (hothers : ∀ c', c' ≠ c → (s.chan c').armedUntilTick = none)

include hothers in
/-- Only the event of channel `c` is armed. -/
theorem armed_movedTo {x : Channel} {tick : Nat} {log : List PinCall} {c' : ChanId} {b : Nat}
    (h : ((s.movedTo c x tick log).chan c').armedUntilTick = some b) : c' = c ∧ x.armedUntilTick = some b := by
  rw [movedTo_chan] at h
  split at h
  · exact ⟨‹_›, h⟩
  · rw [hothers c' ‹_›] at h
    cases h

include hrun hp hothers

/-- One expiry of the channel that counts alone. -/
theorem step_movedTo_of_due {x : Channel} {tick a : Nat} {log : List PinCall} {d : Drive}
    (ha : x.armedUntilTick = some a) (htick : tick ≤ a) (hat : a ≤ t)
    (hd : expiry a (s.params.clkPeriod c) x = .ok d) :
    step (s.movedTo c x tick log) =
      .next (s.movedTo c d.ch a (log ++ Spec.calls c d.calls { s with now := a })) := by
  have hdue : nextDue t (s.movedTo c x tick log) = some (a, c) := by
    refine nextDue_eq_some (by simpa using ha) hat (fun c' a' ha' => ?_) fun c' hlt ha' => ?_
    · obtain ⟨-, hx⟩ := armed_movedTo hothers ha'
      exact (Option.some.inj (ha.symm.trans hx)).le
    · obtain ⟨rfl, -⟩ := armed_movedTo hothers ha'
      exact absurd hlt (lt_irrefl _)
  have hexp : Spec.Expires a c t rest (s.movedTo c x tick log) :=
    ⟨movedTo_running hrun, by simpa using hp, htick.trans hat, hdue, htick⟩
  rw [step_of_expires hexp (by simpa using hd), movedTo_movedTo, calls_movedTo]

/-- The end of the `Advance`, before the next event. -/
theorem step_movedTo_of_not_due {x : Channel} {a : Nat} {log : List PinCall} (ha : x.armedUntilTick = some a)
    (hat : t < a) : step (s.movedTo c x t log) = .next { s.movedTo c x t log with pending := rest } := by
  refine advanceMovesTime _ t rest (movedTo_running hrun) (by simpa using hp) le_rfl ?_
  refine nextDue_eq_none fun c' a' ha' => ?_
  obtain ⟨-, hx⟩ := armed_movedTo hothers ha'
  obtain rfl := Option.some.inj (ha.symm.trans hx)
  exact hat

end Alone

/-- `j` periods after the load of channel `c`: as loaded, its event `first` ticks ahead, with the pin calls `log` of
each period. -/
def State.afterPeriods (c : ChanId) (first period : Nat) (log : Nat → List PinCall) (s : State) (j : Nat) : State :=
  s.movedTo c { s.chan c with armedUntilTick := some (s.now + j * period + first) } (s.now + j * period)
    ((List.range j).flatMap log)

/-- The pin calls of the mode 2 period `j`. -/
def State.pulseCalls (c : ChanId) (period : Nat) (s : State) (j : Nat) : List PinCall :=
  Spec.calls c [false, true] { s with now := s.now + (j + 1) * period }

/-- The pin calls of the mode 3 period `j`. -/
def State.squareCalls (c : ChanId) (high period : Nat) (s : State) (j : Nat) : List PinCall :=
  Spec.calls c [false] { s with now := s.now + j * period + high } ++
    Spec.calls c [true] { s with now := s.now + (j + 1) * period }

section Periods

variable {c : ChanId} {first period k : Nat} {log : Nat → List PinCall} {rest : List Input} {s : State}

theorem afterPeriods_zero (harmed : (s.chan c).armedUntilTick = some (s.now + first)) :
    s.afterPeriods c first period log 0 = s := by
  simp only [State.afterPeriods, Nat.zero_mul, Nat.add_zero, ← harmed]
  exact movedTo_self c s

theorem afterPeriods_succ (j : Nat) :
    s.afterPeriods c first period log (j + 1) =
      s.movedTo c { s.chan c with armedUntilTick := some (s.now + (j + 1) * period + first) }
        (s.now + (j + 1) * period) ((List.range j).flatMap log ++ log j) := by
  rw [State.afterPeriods, List.range_succ, List.flatMap_append, List.flatMap_singleton]

variable (hrun : s.Running) (hp : s.pending = .advance (s.now + k * period) :: rest)
  (hothers : ∀ c', c' ≠ c → (s.chan c').armedUntilTick = none)
include hrun hp hothers

/-- If each period takes `m` steps, an `Advance` by `k` periods takes one more, for its end. -/
theorem run_afterPeriods {m : Nat} (hfirst : 1 ≤ first) (harmed : (s.chan c).armedUntilTick = some (s.now + first))
    (hperiod : ∀ j < k, Sys2Proof.core.run m (s.afterPeriods c first period log j) =
      .next (s.afterPeriods c first period log (j + 1))) :
    Sys2Proof.core.run (m * k + 1) s = .next { s.afterPeriods c first period log k with pending := rest } := by
  have hperiods := run_rounds hperiod
  rw [afterPeriods_zero harmed] at hperiods
  rw [run_add hperiods]
  exact run_one (step_movedTo_of_not_due hrun hp hothers rfl (by omega))

variable (hout : (s.chan c).outputLevel = true) (hcount : (s.chan c).currentCount = eff (s.chan c))
include hout hcount

/-- A period in mode 2 is one expiry. -/
theorem run_pulsePeriod (hm : (s.chan c).mode = .m2)
    (hperiod : period = eff (s.chan c) * s.params.clkPeriod c) {j : Nat} (hj : j < k) :
    Sys2Proof.core.run 1 (s.afterPeriods c period period (s.pulseCalls c period) j) =
      .next (s.afterPeriods c period period (s.pulseCalls c period) (j + 1)) := by
  have hend : s.now + j * period + period = s.now + (j + 1) * period := by ring
  have hle : (j + 1) * period ≤ k * period := Nat.mul_le_mul_right _ hj
  have hstep := step_movedTo_of_due hrun hp hothers (tick := s.now + j * period)
    (log := (List.range j).flatMap (s.pulseCalls c period)) (congrArg some hend) (by omega) (by omega)
    (expiry_endOfPulsePeriod hout hcount hm _)
  rw [← hperiod] at hstep
  rw [afterPeriods_succ]
  exact run_one hstep

/-- A period in mode 3 is two expiries, at the end of the high and of the low half. -/
theorem run_squarePeriod {high : Nat} (hm : (s.chan c).mode = .m3)
    (hhigh : high = (eff (s.chan c) + 1) / 2 * s.params.clkPeriod c)
    (hperiod : period = eff (s.chan c) * s.params.clkPeriod c) {j : Nat} (hj : j < k) :
    Sys2Proof.core.run 2 (s.afterPeriods c high period (s.squareCalls c high period) j) =
      .next (s.afterPeriods c high period (s.squareCalls c high period) (j + 1)) := by
  have hhalves : high + eff (s.chan c) / 2 * s.params.clkPeriod c = period := by
    rw [hhigh, hperiod, ← Nat.add_mul]
    congr 1
    omega
  have hend : s.now + j * period + period = s.now + (j + 1) * period := by ring
  have hle : (j + 1) * period ≤ k * period := Nat.mul_le_mul_right _ hj
  have hfall := step_movedTo_of_due hrun hp hothers (tick := s.now + j * period)
    (log := (List.range j).flatMap (s.squareCalls c high period))
    (x := { s.chan c with armedUntilTick := some (s.now + j * period + high) }) rfl (by omega) (by omega)
    (expiry_squareWave_high hm hout)
  have hlow : s.now + j * period + high + eff (s.chan c) / 2 * s.params.clkPeriod c = s.now + (j + 1) * period := by
    rw [Nat.add_assoc, hhalves, hend]
  have hrise := step_movedTo_of_due hrun hp hothers (tick := s.now + j * period + high)
    (log := (List.range j).flatMap (s.squareCalls c high period) ++
      Spec.calls c [false] { s with now := s.now + j * period + high })
    (congrArg some hlow) (by omega) (by omega) (expiry_endOfSquarePeriod hout hcount hm (eff (s.chan c) / 2) _)
  rw [← hhigh, List.append_assoc] at hrise
  rw [afterPeriods_succ]
  exact (run_succ hfall 1).trans (run_one hrise)

end Periods

/-! ## The statements -/

/-- Settles O7: the next due event is the earliest and, at its tick, of the least channel, and these fix it. -/
theorem nextDueIsEarliestThenLeastChannel : Obligations.NextDueIsEarliestThenLeastChannel := by
  intro t s
  refine ⟨⟨nextDue_none, nextDue_eq_none⟩, fun a c => ⟨fun h => ?_, fun ⟨ha, hle, hfirst⟩ => ?_⟩⟩
  · obtain ⟨ha, hle⟩ := nextDue_some h
    refine ⟨ha, hle, fun c' a' ha' => ?_⟩
    obtain hlt | rfl := (nextDue_le h c' a' ha').lt_or_eq
    · exact .inl hlt
    · exact .inr ⟨rfl, nextDue_index_le h ha'⟩
  · refine nextDue_eq_some ha hle (fun c' a' ha' => ?_) fun c' hlt ha' => ?_
    · obtain hlt | ⟨rfl, -⟩ := hfirst c' a' ha'
      · exact hlt.le
      · exact le_rfl
    · have := hfirst c' a ha'
      omega

/-- Settles O9: no event is before now, so that each channel has at most one expiry for each tick up to `t`. -/
theorem advanceLoopEnds : Obligations.AdvanceLoopEnds := by
  intro s t rest hinv hstale hrun hp hle
  obtain ⟨n, u, hn, hend⟩ := Advancing.ends ⟨hinv, hstale, hrun, hp, hle⟩
  have := state_firingsBy_le (t := t) hstale
  exact ⟨n, u, by omega, hend⟩

/-- Settles O40: the next step is the expiry of a one-shot. -/
theorem expiryEndsAOneShot : Obligations.ExpiryEndsAOneShot :=
  fun _ _ _ _ _ hexp hm => step_of_expires hexp (expiry_oneShot hm)

/-- Settles O41: the next step is the expiry of a strobe. -/
theorem expiryStrobes : Obligations.ExpiryStrobes :=
  fun _ _ _ _ _ hexp hm => step_of_expires hexp (expiry_strobe hm)

/-- Settles O42: the next step is the expiry of a rate generator. -/
theorem expiryReloadsInMode2 : Obligations.ExpiryReloadsInMode2 :=
  fun _ _ _ _ _ hexp hm => step_of_expires hexp (expiry_rateGenerator hm)

/-- Settles O43: the next step is the expiry of a square wave, at the end of its high or of its low half. -/
theorem expiryTogglesInMode3 : Obligations.ExpiryTogglesInMode3 := by
  intro a t c rest s hexp hm
  dsimp only
  cases hout : (s.chan c).outputLevel
  · exact step_of_expires hexp (expiry_squareWave_low hm hout)
  · exact step_of_expires hexp (expiry_squareWave_high hm hout)

/-- Settles O44: each period is one expiry, which leaves the channel as loaded one period on. -/
theorem rateGeneratorPulsesOncePerPeriod : Obligations.RateGeneratorPulsesOncePerPeriod := by
  intro c k rest s ch period hrun hm hout hcount hclk harmed hothers hp
  have hpos : 1 ≤ period := Nat.mul_pos (eff_pos ch) hclk
  have hahead : s.now + k * period + period = s.now + (k + 1) * period := by ring
  have hk := run_afterPeriods hrun hp hothers hpos harmed
    fun j hj => run_pulsePeriod hrun hp hothers hout hcount hm rfl hj
  rw [Nat.one_mul, State.afterPeriods, hahead] at hk
  exact hk

/-- Settles O45: each period is two expiries, of which the second leaves the channel as loaded one period on. -/
theorem squareWaveTogglesTwicePerPeriod : Obligations.SquareWaveTogglesTwicePerPeriod := by
  intro c k rest s ch clk high period hrun hm hout hcount htwo hclk harmed hothers hp
  have hpos : 1 ≤ high := Nat.mul_pos (by omega) hclk
  exact run_afterPeriods hrun hp hothers hpos harmed
    fun j hj => run_squarePeriod hrun hp hothers hout hcount hm rfl rfl hj

end Sys2Proof.Machine
end

section
/-! SUPPORT. The gate (spec/43_channel_gate.md R170 to R174): the step of the gate driver's call, and what a gate change
makes of a channel at each edge. -/

namespace Sys2Proof.Machine

open Spec

/-! ## The gate driver's call (R170) -/

section Call

variable {c : ChanId} {level : Bool} {rest : List Input} {s t : State} {d : Drive}

theorem step_eq_gateStep (h : GateCall c level rest s) : step s = gateStep c level (s.withPending rest) := by
  obtain ⟨hrun, hp, hdue⟩ := h
  rw [step_gate hrun hp, afterExpiries_of_none hdue]

theorem step_of_gateCall (h : GateCall c level rest s)
    (hd : setGate s.now (s.params.clkPeriod c) level (s.chan c) = .ok d) :
    step s = .next (((s.withPending rest).setChan c d.ch).notify c d.calls) := by
  rw [step_eq_gateStep h, gateStep, withPending_chan]
  exact commit_ok hd id _

/-- A gate change that drives no output writes its channel, and nothing else. -/
theorem step_of_gateCall_silent {x : Channel} (h : GateCall c level rest s)
    (hd : setGate s.now (s.params.clkPeriod c) level (s.chan c) = .ok { ch := x, calls := [] }) :
    step s = .next { s.setChan c x with pending := rest } := by
  rw [step_of_gateCall h hd, notify_nil]
  cases c <;> rfl

theorem step_of_gateCall_next (h : GateCall c level rest s) (ht : step s = .next t) :
    ∃ d, setGate s.now (s.params.clkPeriod c) level (s.chan c) = .ok d ∧
      t = ((s.withPending rest).setChan c d.ch).notify c d.calls := by
  rw [step_eq_gateStep h] at ht
  simpa only [withPending_now, withPending_params, withPending_chan] using gateStep_next ht

end Call

/-! ## The two kinds of mode (R41) -/

theorem levelGated_eq_true_iff {m : Mode} : m.levelGated = true ↔ m = .m0 ∨ m = .m2 ∨ m = .m3 := by
  cases m <;> decide

theorem levelGated_eq_false_iff {m : Mode} : m.levelGated = false ↔ m = .m1 ∨ m = .m4 ∨ m = .m5 := by
  cases m <;> decide

theorem loadLevels_of_edge {m : Mode} (h : m.levelGated = false) : loadLevels m = if m = .m1 then [false] else [] := by
  cases m with
  | m0 | m2 | m3 => cases h
  | m1 | m4 | m5 => rfl

/-! ## A gate change of one channel, edge by edge -/

section OneChannel

variable {now clk : Nat} {level : Bool} {ch : Channel}

theorem setGate_records (h : ch.phase = .unprogrammed ∨ ch.phase = .awaitingReload ∨ ch.gate = level) :
    setGate now clk level ch = .ok { ch := { ch with gate := level }, calls := [] } :=
  if_pos h

/-- Once a count has been written, a change of level is an edge. -/
theorem not_records_of_edge (hp : ch.phase = .counting ∨ ch.phase = .halted) (hg : ch.gate ≠ level) :
    ¬(ch.phase = .unprogrammed ∨ ch.phase = .awaitingReload ∨ ch.gate = level) := by
  obtain hp | hp := hp <;> simp [hp, hg]

theorem setGate_fall_edgeTriggered (hl : ch.mode.levelGated = false) :
    setGate now clk false ch = .ok { ch := { ch with gate := false }, calls := [] } := by
  unfold setGate
  simp [hl]

theorem gateFall_eq (now clk : Nat) (ch : Channel) :
    gateFall now clk ch =
      { ch :=
          { ch with
            currentCount := if ch.armedUntilTick.isSome then live now clk ch else ch.currentCount
            armedUntilTick := none }
        calls := [] } := by
  cases ha : ch.armedUntilTick with
  | none =>
    have hdisarmed : { ch with armedUntilTick := none } = ch := by rw [← ha]
    simp [gateFall, Channel.armed, ha, hdisarmed]
  | some a => simp [gateFall, Channel.armed, Channel.cancel, ha]

theorem setGate_fall_levelGated (hp : ch.phase = .counting ∨ ch.phase = .halted) (hg : ch.gate = true)
    (hl : ch.mode.levelGated = true) :
    setGate now clk false ch = .ok (gateFall now clk { ch with gate := false }) := by
  rw [setGate, if_neg (not_records_of_edge hp (by simp [hg])), if_pos hl, if_neg Bool.false_ne_true]

theorem paused_iff : ch.paused = true ↔ ch.phase = .counting ∧ ch.armedUntilTick = none := by
  simp [Channel.paused, Channel.armed]

theorem gateRise_eq (now clk : Nat) (ch : Channel) :
    gateRise now clk ch =
      .ok
        { ch :=
            { ch with
              armedUntilTick :=
                if ch.phase = .counting ∧ ch.armedUntilTick = none then
                  some (now + (ch.currentCount - lowHalfToCome ch) * clk)
                else ch.armedUntilTick }
          calls := [] } := by
  unfold gateRise
  by_cases hpaused : ch.phase = .counting ∧ ch.armedUntilTick = none
  · rw [if_pos (paused_iff.2 hpaused), if_pos hpaused, schedule_of_disarmed hpaused.2]
  · rw [if_neg (mt paused_iff.1 hpaused), if_neg hpaused]

theorem setGate_rise_levelGated (hp : ch.phase = .counting ∨ ch.phase = .halted) (hg : ch.gate = false)
    (hl : ch.mode.levelGated = true) : setGate now clk true ch = gateRise now clk { ch with gate := true } := by
  rw [setGate, if_neg (not_records_of_edge hp (by simp [hg])), if_pos hl, if_pos rfl]

/-- The periods a resumed channel runs (R172): in the high half of mode 3 the low half is not among them. -/
theorem currentCount_sub_lowHalfToCome (ch : Channel) :
    ch.currentCount - lowHalfToCome ch =
      if ch.mode = .m3 ∧ ch.outputLevel = true then ch.currentCount - eff ch / 2 else ch.currentCount := by
  split
  · rename_i h
    rw [lowHalfToCome_high h.1 h.2]
  · rename_i h
    rw [lowHalfToCome_eq_zero (by simpa [imp_iff_not_or] using h), Nat.sub_zero]

/-- The load of a trigger is never refused: only mode 3 is (R118). -/
theorem loadAndArm_edgeTriggered (hl : ch.mode.levelGated = false) :
    loadAndArm now clk ch =
      .ok { ch := loaded now clk ch, calls := if ch.mode = .m1 then [false] else [] } := by
  rw [loadAndArm_eq_loaded (by rintro ⟨hm, -⟩; simp [hm, Mode.levelGated] at hl), loadLevels_of_edge hl]

theorem setGate_rise_edgeTriggered (hp : ch.phase = .counting ∨ ch.phase = .halted) (hg : ch.gate = false)
    (hl : ch.mode.levelGated = false) :
    setGate now clk true ch =
      .ok { ch := loaded now clk { ch with gate := true }, calls := if ch.mode = .m1 then [false] else [] } := by
  rw [setGate, if_neg (not_records_of_edge hp (by simp [hg])), if_neg (by simp [hl]), if_pos rfl]
  exact loadAndArm_edgeTriggered (ch := { ch with gate := true }) hl

/-- A gate change writes the level, the count and the event and drives nothing, or it is a trigger (R170 to R173). -/
theorem setGate_silent_or_trigger {d : Drive} (h : setGate now clk level ch = .ok d) :
    (∃ g cc a, d = { ch := { ch with gate := g, currentCount := cc, armedUntilTick := a }, calls := [] }) ∨
      (level = true ∧ ch.mode.levelGated = false ∧
        d = { ch := loaded now clk { ch with gate := true }, calls := if ch.mode = .m1 then [false] else [] }) := by
  obtain hd | ⟨-, -, hd⟩ | ⟨-, -, -, _, hd⟩ | ⟨hl, hlevel, hload⟩ := setGate_cases h
  · exact .inl ⟨_, _, _, hd⟩
  · exact .inl ⟨_, _, _, hd⟩
  · exact .inl ⟨_, _, _, hd⟩
  · rw [loadAndArm_edgeTriggered (ch := { ch with gate := true }) hl] at hload
    injection hload with hd
    exact .inr ⟨hlevel, hl, hd.symm⟩

/-- What a gate change may write of its channel, and what it may drive (R174). -/
theorem setGate_frame {d : Drive} (h : setGate now clk level ch = .ok d) :
    (∃ g cc nc o a ph,
      d.ch =
        { ch with
          gate := g, currentCount := cc, nullCount := nc, outputLevel := o, armedUntilTick := a, phase := ph }) ∧
      (d.ch.nullCount ≠ ch.nullCount → level = true ∧ ch.mode.levelGated = false) ∧
      (d.calls = [] ∨ (level = true ∧ ch.mode = .m1 ∧ d.calls = [false])) := by
  obtain ⟨g, cc, a, rfl⟩ | ⟨hlevel, hl, rfl⟩ := setGate_silent_or_trigger h
  · exact ⟨⟨_, _, _, _, _, _, rfl⟩, fun hnull => absurd rfl hnull, .inl rfl⟩
  · refine ⟨⟨_, _, _, _, _, _, rfl⟩, fun _ => ⟨hlevel, hl⟩, ?_⟩
    by_cases hm : ch.mode = .m1
    · exact .inr ⟨hlevel, hm, if_pos hm⟩
    · exact .inl (if_neg hm)

end OneChannel

/-! ## The statements -/

/-- Settles O50: the call writes one channel and the pin log, and `setGate_frame` says how. -/
theorem gateNeverTouchesTheRest : Obligations.GateNeverTouchesTheRest := by
  intro c level rest s t hcall ht
  obtain ⟨d, hd, rfl⟩ := step_of_gateCall_next hcall ht
  obtain ⟨hframe, hnull, hcalls⟩ := setGate_frame hd
  have hfatal : s.fatalCode = none := hcall.1
  refine ⟨fun c' hc' => ?_, by simpa using hframe, fun h => ?_, ?_, by simpa using hfatal, by simp, by simp, by simp⟩
  · rw [notify_chan, chan_setChan_other hc', withPending_chan]
  · rw [notify_chan, chan_setChan_same] at h
    exact (hnull h).imp_right levelGated_eq_false_iff.1
  · obtain hsilent | ⟨hlevel, hm, hlow⟩ := hcalls
    · exact .inl (by simp [hsilent])
    · exact .inr ⟨hlevel, hm, by simp [hlow, notify_pinLog, calls]⟩

/-- Settles O46: the level is stored before a count, without an edge, and at an edge the mode does not heed. -/
theorem gateLevelIsRecorded : Obligations.GateLevelIsRecorded := by
  intro c level rest s hcall h
  refine step_of_gateCall_silent hcall ?_
  obtain h | h | h | ⟨rfl, hm⟩ := h
  · exact setGate_records (.inl h)
  · exact setGate_records (.inr (.inl h))
  · exact setGate_records (.inr (.inr h))
  · exact setGate_fall_edgeTriggered (levelGated_eq_false_iff.2 hm)

/-- Settles O47: the fall is `gateFall` of the channel with its gate low. -/
theorem gateFallPauses : Obligations.GateFallPauses := by
  intro c rest s hcall hp hg hm
  refine step_of_gateCall_silent hcall ?_
  rw [setGate_fall_levelGated hp hg (levelGated_eq_true_iff.2 hm), gateFall_eq]
  rfl

/-- Settles O48: the rise is `gateRise` of the channel with its gate high. -/
theorem gateRiseResumes : Obligations.GateRiseResumes := by
  intro c rest s hcall hp hg hm
  dsimp only
  refine step_of_gateCall_silent hcall ?_
  rw [setGate_rise_levelGated hp hg (levelGated_eq_true_iff.2 hm), gateRise_eq, currentCount_sub_lowHalfToCome]
  rfl

/-- Settles O49: the rise is a load, whose only pin call is that of mode 1. -/
theorem gateRiseTriggers : Obligations.GateRiseTriggers := by
  intro c rest s hcall hp hg hm
  rw [step_of_gateCall hcall (setGate_rise_edgeTriggered hp hg (levelGated_eq_false_iff.2 hm))]
  cases c <;> rfl

end Sys2Proof.Machine
end

section
/-! SUPPORT. The front end on every transaction word (spec/44_front_end.md R180, R181). -/

namespace Sys2Proof.Machine

/-- Settles O3: every instruction is the access the front end reads off its own word, and the word of the instruction
`w` decodes to is `w`. -/
theorem execFollowsTheBitsOfTheWord : Obligations.ExecFollowsTheBitsOfTheWord := by
  intro w s
  calc exec (decodeWord w) s
      _ = Spec.frontEnd (encodeWord (decodeWord w)) s := (frontEnd_encodeWord (decodeWord w) s).symm
      _ = Spec.frontEnd w s := by rw [encodeWord_decodeWord]

end Sys2Proof.Machine
end

section
/-! SUPPORT. The checkpoint list (spec/46_checkpoint.md R200 to R203): the list the model saves and the check of a list
to restore, as the table of R201 has them, and that saving and restoring are inverse to each other. -/

namespace Sys2Proof.Machine

open Spec

/-! ## The calls of the checkpoint host -/

theorem step_serialize_of_none {s : State} {rest : List Input} (hrun : s.Running)
    (hp : s.pending = .serialize :: rest) (hdue : nextDue s.now s = none) :
    step s = .next { s with pending := rest, replies := s.replies ++ [.saved (serialize s)] } := by
  rw [step_serialize hrun hp, afterExpiries_of_none hdue]
  rfl

theorem step_restore {s : State} {entries : List Entry} {rest : List Input} (hrun : s.Running)
    (hp : s.pending = .restore entries :: rest) : step s = restoreStep entries (s.withPending rest) := by
  simp only [step, takeStep, whileRunning_running hrun, hp]

theorem restoreStep_of_good {entries : List Entry} (h : firstBadEntry 1 entryOrder entries = none) (s : State) :
    restoreStep entries s =
      .next
        { s with
          ch0 := restoredChannel .c0 entries
          ch1 := restoredChannel .c1 entries
          ch2 := restoredChannel .c2 entries } := by
  simp only [restoreStep, h]

theorem restoreStep_of_bad {entries : List Entry} {position : Nat}
    (h : firstBadEntry 1 entryOrder entries = some position) (s : State) :
    restoreStep entries s = takeFatal (.checkpointMismatch position) s := by
  simp only [restoreStep, h]

/-! ## The list as the table of R201 has it -/

/-- The least and the greatest legal value of a field, by the table of R201. -/
def Field.range : Field → Nat × Option Nat
  | .mode => (0, some 5)
  | .accessMode => (1, some 3)
  | .countRegister | .latchedValue => (0, some 65535)
  | .currentCount => (0, some 65536)
  | .armedUntilTick => (0, none)
  | .phase => (0, some 3)
  | .writeLow | .latchedStatus => (0, some 255)
  | .countFormat | .gate | .outputLevel | .latched | .armed | .writeHalf | .readHalf | .nullCount | .statusLatched =>
    (0, some 1)

theorem legal_iff_inRange (f : Field) (v : Nat) : f.legal v = true ↔ inRange f.range v := by
  cases f <;> simp [Field.legal, Field.range, inRange]

theorem entryOrder_names : entryOrder.map Prod.fst = officialNames := rfl

theorem entryOrder_ranges : entryOrder.map (fun x => x.2.range) = fieldRanges ++ fieldRanges ++ fieldRanges := rfl

theorem allInRange_iff_legal (entries : List Entry) :
    AllInRange entries ↔ ∀ p ∈ entryOrder.zip entries, p.1.2.legal p.2.value = true := by
  rw [AllInRange, ← entryOrder_ranges, List.zip_map_left, List.forall_mem_map]
  exact forall₂_congr fun p _ => (legal_iff_inRange p.1.2 p.2.value).symm

/-- R202: the check finds no bad entry exactly in the lists of the table. -/
theorem firstBadEntry_none_iff_official (entries : List Entry) :
    firstBadEntry 1 entryOrder entries = none ↔ entries.map Entry.name = officialNames ∧ AllInRange entries := by
  rw [firstBadEntry_none_iff, entryOrder_names, allInRange_iff_legal]

/-! ## The saved list (R200) -/

theorem encode_eq_savedValues (ch : Channel) : (fieldOrder.map fun f => f.encode ch) = savedValues ch := by
  have bit_eq (b : Bool) : b.toNat = bit b := by cases b <;> rfl
  simp only [fieldOrder, List.map_cons, List.map_nil, Field.encode, savedValues, bit_eq, Channel.armed, List.cons.injEq,
    and_true, true_and]
  refine ⟨?mode, ?format, ?access, ?armed, ?tick, ?phase, ?writeHalf, ?readHalf⟩
  case mode => cases ch.mode <;> rfl
  case format => cases ch.countFormat <;> rfl
  case access => cases ch.accessMode <;> rfl
  case armed => cases ch.armedUntilTick <;> rfl
  case tick => cases ch.armedUntilTick <;> rfl
  case phase => cases ch.phase <;> rfl
  case writeHalf => cases ch.writeHalf <;> rfl
  case readHalf => cases ch.readHalf <;> rfl

theorem serialize_names (s : State) : (serialize s).map Entry.name = officialNames := rfl

theorem serialize_values (s : State) :
    (serialize s).map Entry.value = savedValues s.ch0 ++ savedValues s.ch1 ++ savedValues s.ch2 := by
  simp only [← encode_eq_savedValues]
  rfl

/-- Each saved value stands against the field it encodes. -/
theorem zip_entryOrder_serialize (s : State) :
    entryOrder.zip (serialize s) =
      [.c0, .c1, .c2].flatMap fun c => fieldOrder.map fun f =>
        ((c.entryPrefix ++ f.name, f), { name := c.entryPrefix ++ f.name, value := f.encode (s.chan c) }) := rfl

theorem allInRange_serialize {s : State} (h : ∀ c, (s.chan c).CountBound) : AllInRange (serialize s) := by
  rw [allInRange_iff_legal, zip_entryOrder_serialize]
  intro p hp
  obtain ⟨c, -, hp⟩ := List.mem_flatMap.1 hp
  obtain ⟨f, -, rfl⟩ := List.mem_map.1 hp
  exact legal_encode _ (h c) f

theorem firstBadEntry_serialize {s : State} (h : ∀ c, (s.chan c).CountBound) :
    firstBadEntry 1 entryOrder (serialize s) = none :=
  (firstBadEntry_none_iff_official _).2 ⟨serialize_names s, allInRange_serialize h⟩

/-! ## The values a good list gives (R202) -/

/-- The value a list gives a field of channel `c`. -/
def givenValue (c : ChanId) (entries : List Entry) (f : Field) : Nat :=
  ((entries.map Entry.value)[18 * c.index + fieldOrder.idxOf f]?).getD 0

theorem entryOrder_getElem? (c : ChanId) (f : Field) :
    entryOrder[18 * c.index + fieldOrder.idxOf f]? = some (c.entryPrefix ++ f.name, f) := by
  cases c <;> cases f <;> rfl

theorem fieldOrder_nodup : fieldOrder.Nodup := by decide

/-- The 18 values of a channel, by field. -/
theorem slice_eq_givenValue {entries : List Entry} (hlen : entries.length = 54) (c : ChanId) :
    ((entries.map Entry.value).drop (18 * c.index)).take 18 = fieldOrder.map (givenValue c entries) := by
  have hc : c.index ≤ 2 := by cases c <;> decide
  refine List.ext_getElem (by simp [fieldOrder, hlen]; omega) fun i hi hi' => ?_
  have hi18 : i < fieldOrder.length := by simpa using hi'
  have hi54 : 18 * c.index + i < entries.length := by
    have : fieldOrder.length = 18 := rfl
    omega
  simp [givenValue, fieldOrder_nodup.idxOf_getElem i hi18, List.getElem?_eq_getElem hi54]

theorem legal_givenValue {entries : List Entry} (h : AllInRange entries) (hlen : entries.length = 54) (c : ChanId)
    (f : Field) : f.legal (givenValue c entries f) = true := by
  have hx := entryOrder_getElem? c f
  have he : 18 * c.index + fieldOrder.idxOf f < entries.length := by
    obtain ⟨hlt, -⟩ := List.getElem?_eq_some_iff.1 hx
    exact hlen ▸ hlt
  rw [givenValue, List.getElem?_map, List.getElem?_eq_getElem he]
  exact (allInRange_iff_legal entries).1 h (_, _)
    (List.mem_of_getElem? (List.getElem?_zip_eq_some.2 ⟨hx, List.getElem?_eq_getElem he⟩))

/-- R202: entry 11 is ignored where entry 10, the armed mark, is 0. -/
theorem givenValues_eq {entries : List Entry} (hlen : entries.length = 54) (c : ChanId) :
    givenValues c entries =
      fieldOrder.map fun f =>
        if f = .armedUntilTick ∧ givenValue c entries .armed = 0 then 0 else givenValue c entries f := by
  have harmed : (fieldOrder.map (givenValue c entries))[9]? = some (givenValue c entries .armed) := rfl
  rw [givenValues, slice_eq_givenValue hlen, harmed]
  by_cases h : givenValue c entries .armed = 0 <;> simp [h, fieldOrder]

/-! ## A channel from legal values -/

theorem code_modeOfCode {v : Nat} (h : v ≤ 5) : (modeOfCode v).code.toNat = v := by
  decide +revert

theorem code_accessModeOfCode {v : Nat} (hlo : 1 ≤ v) (hhi : v ≤ 3) : (accessModeOfCode v).code.toNat = v := by
  decide +revert

theorem code_phaseOfCode {v : Nat} (h : v ≤ 3) : (phaseOfCode v).code = v := by
  decide +revert

theorem code_halfOfCode {v : Nat} (h : v ≤ 1) : (halfOfCode v).code = v := by
  decide +revert

theorem code_formatOf {v : Nat} (h : v ≤ 1) : (formatOf (v == 1)).code.toNat = v := by
  decide +revert

theorem toNat_beq_one {v : Nat} (h : v ≤ 1) : (v == 1).toNat = v := by
  decide +revert

/-- The channel restored from legal values saves those values again, but that a disarmed channel saves no tick. -/
theorem encode_channelOfValues {g : Field → Nat} (h : ∀ f : Field, f.legal (g f) = true) (f : Field) :
    f.encode (channelOfValues (fieldOrder.map g)) = if f = .armedUntilTick ∧ g .armed = 0 then 0 else g f := by
  have harmed : g .armed = 0 ∨ g .armed = 1 := Nat.le_one_iff_eq_zero_or_eq_one.1 (of_decide_eq_true (h .armed))
  have hword {n : Nat} (hn : n ≤ 65535) : (BitVec.ofNat 16 n).toNat = n := Nat.mod_eq_of_lt (Nat.lt_succ_of_le hn)
  have hbyte {n : Nat} (hn : n ≤ 255) : (BitVec.ofNat 8 n).toNat = n := Nat.mod_eq_of_lt (Nat.lt_succ_of_le hn)
  by_cases hf : f = .armedUntilTick
  · subst hf
    obtain harmed | harmed := harmed <;> simp [Field.encode, channelOfValues, fieldOrder, harmed]
  rw [if_neg fun hand => hf hand.1]
  cases f
  case armedUntilTick => exact absurd rfl hf
  case mode => exact code_modeOfCode (of_decide_eq_true (h .mode))
  case countFormat => exact code_formatOf (of_decide_eq_true (h .countFormat))
  case accessMode =>
    obtain ⟨hlo, hhi⟩ := Bool.and_eq_true_iff.1 (h .accessMode)
    exact code_accessModeOfCode (of_decide_eq_true hlo) (of_decide_eq_true hhi)
  case countRegister => exact hword (of_decide_eq_true (h .countRegister))
  case currentCount => rfl
  case latchedValue => exact hword (of_decide_eq_true (h .latchedValue))
  case armed =>
    obtain harmed | harmed := harmed <;> simp [Field.encode, channelOfValues, fieldOrder, Channel.armed, harmed]
  case phase => exact code_phaseOfCode (of_decide_eq_true (h .phase))
  case writeHalf => exact code_halfOfCode (of_decide_eq_true (h .writeHalf))
  case readHalf => exact code_halfOfCode (of_decide_eq_true (h .readHalf))
  case writeLow => exact hbyte (of_decide_eq_true (h .writeLow))
  case latchedStatus => exact hbyte (of_decide_eq_true (h .latchedStatus))
  case gate => exact toNat_beq_one (of_decide_eq_true (h .gate))
  case outputLevel => exact toNat_beq_one (of_decide_eq_true (h .outputLevel))
  case latched => exact toNat_beq_one (of_decide_eq_true (h .latched))
  case nullCount => exact toNat_beq_one (of_decide_eq_true (h .nullCount))
  case statusLatched => exact toNat_beq_one (of_decide_eq_true (h .statusLatched))

theorem savedValues_restoredChannel {entries : List Entry} (h : AllInRange entries) (hlen : entries.length = 54)
    (c : ChanId) : savedValues (restoredChannel c entries) = givenValues c entries := by
  rw [← encode_eq_savedValues, givenValues_eq hlen, restoredChannel, slice_eq_givenValue hlen]
  exact List.map_congr_left fun f _ => encode_channelOfValues (legal_givenValue h hlen c) f

/-! ## The statements -/

/-- Settles O51: what is saved of a channel is a legal value of each field, under the names and codes of the table. -/
theorem serializeReturnsTheList : Obligations.SerializeReturnsTheList := by
  intro s rest hrun hp hdue
  exact ⟨serialize s, step_serialize_of_none hrun hp hdue, rfl, serialize_names s, serialize_values s,
    allInRange_serialize⟩

/-- Settles O52: a saved list passes the check, and its slice for each channel decodes to that channel. -/
theorem restoreOfSavedListRoundTrips : Obligations.RestoreOfSavedListRoundTrips := by
  intro s u rest hbound hrun hp
  rw [step_restore hrun hp, restoreStep_of_good (firstBadEntry_serialize hbound)]
  simp only [restoredChannel_serialize]
  rfl

/-- Settles O54: the model's check finds no bad entry exactly in the lists of the table. -/
theorem restoreChecksTheList : Obligations.RestoreChecksTheList := by
  intro s entries rest hrun hp
  rw [← firstBadEntry_none_iff_official, step_restore hrun hp]
  refine ⟨fun hgood => ?_, fun hbad => ?_⟩
  · obtain ⟨hnames, hrange⟩ := (firstBadEntry_none_iff_official entries).1 hgood
    have hlen : entries.length = 54 := (List.length_map _).symm.trans (congrArg List.length hnames)
    have hsaved := savedValues_restoredChannel hrange hlen
    exact ⟨_, _, _, restoreStep_of_good hgood _, hsaved .c0, hsaved .c1, hsaved .c2⟩
  · obtain ⟨position, hposition⟩ := Option.ne_none_iff_exists'.1 hbad
    exact ⟨position, firstBadEntry_ge hposition, restoreStep_of_bad hposition _⟩

end Sys2Proof.Machine
end

section
/-! SUPPORT. No step reads the two logs (spec/00_scope.md R11): a step from a state with longer logs is the same step,
so that two states that agree on everything but the logs run alike (spec/46_checkpoint.md R203). -/

namespace Sys2Proof.Machine

open Spec

/-! ## A state with earlier log entries -/

/-- The same state, with `pins` and `results` logged before everything its logs hold. -/
def State.logsAfter (pins : List PinCall) (results : List Reply) (s : State) : State :=
  { s with pinLog := pins ++ s.pinLog, replies := results ++ s.replies }

/-- The same answer, with `pins` and `results` logged before everything in the logs of the next state. -/
def resultAfter (pins : List PinCall) (results : List Reply) : StepResult → StepResult
  | .next s => .next (s.logsAfter pins results)
  | .fault r => .fault r
  | .refused r => .refused r

section Logs

variable {pins : List PinCall} {results : List Reply}

@[simp] theorem logsAfter_chan (c : ChanId) (s : State) : (s.logsAfter pins results).chan c = s.chan c := by
  cases c <;> rfl
@[simp] theorem logsAfter_params (s : State) : (s.logsAfter pins results).params = s.params := rfl
@[simp] theorem logsAfter_fatalCode (s : State) : (s.logsAfter pins results).fatalCode = s.fatalCode := rfl
@[simp] theorem logsAfter_now (s : State) : (s.logsAfter pins results).now = s.now := rfl
@[simp] theorem logsAfter_pending (s : State) : (s.logsAfter pins results).pending = s.pending := rfl
@[simp] theorem logsAfter_draws (s : State) : (s.logsAfter pins results).draws = s.draws := rfl

@[simp] theorem resultAfter_next (s : State) :
    resultAfter pins results (.next s) = .next (s.logsAfter pins results) := rfl

/-! ## The operations on the state -/

@[simp] theorem setChan_logsAfter (c : ChanId) (x : Channel) (s : State) :
    (s.logsAfter pins results).setChan c x = (s.setChan c x).logsAfter pins results := by
  cases c <;> rfl
@[simp] theorem notify_logsAfter (c : ChanId) (calls : List Bool) (s : State) :
    (s.logsAfter pins results).notify c calls = (s.notify c calls).logsAfter pins results := by
  simp only [State.notify, State.logsAfter, List.append_assoc]
  rfl
@[simp] theorem reply_logsAfter (r : Reply) (s : State) :
    (s.logsAfter pins results).reply r = (s.reply r).logsAfter pins results := by
  simp only [State.reply, State.logsAfter, List.append_assoc]
@[simp] theorem replyRead_logsAfter (b : Byte) (s : State) :
    (s.logsAfter pins results).replyRead b = (s.replyRead b).logsAfter pins results := reply_logsAfter _ s
@[simp] theorem replyWrote_logsAfter (s : State) :
    (s.logsAfter pins results).replyWrote = s.replyWrote.logsAfter pins results := reply_logsAfter _ s
@[simp] theorem drawn_logsAfter (s : State) :
    (s.logsAfter pins results).drawn = s.drawn.logsAfter pins results := rfl
@[simp] theorem drawnByRead_logsAfter (ch : Channel) (s : State) :
    drawnByRead ch (s.logsAfter pins results) = (drawnByRead ch s).logsAfter pins results := by
  unfold drawnByRead
  split <;> rfl
@[simp] theorem withPending_logsAfter (rest : List Input) (s : State) :
    (s.logsAfter pins results).withPending rest = (s.withPending rest).logsAfter pins results := rfl

@[simp] theorem whileRunning_logsAfter (s : State) (k : StepResult) :
    whileRunning (s.logsAfter pins results) (resultAfter pins results k) =
      resultAfter pins results (whileRunning s k) := by
  cases h : s.fatalCode with
  | none =>
    rw [whileRunning_running h]
    exact whileRunning_running h _
  | some code =>
    rw [whileRunning_fatal h]
    exact whileRunning_fatal h _

theorem commit_logsAfter {finish : State → State}
    (hfinish : ∀ s, finish (s.logsAfter pins results) = (finish s).logsAfter pins results) (c : ChanId)
    (r : Except Stop Drive) (s : State) :
    commit c r finish (s.logsAfter pins results) = resultAfter pins results (commit c r finish s) := by
  unfold commit
  split
  · simp only [setChan_logsAfter, notify_logsAfter, hfinish, resultAfter_next]
  · rfl
  · rfl

end Logs

/-! ## What reads no log -/

/-- From a state with earlier log entries, the same answer with the same entries before it. -/
def LogBlind (f : State → StepResult) : Prop :=
  ∀ pins results s, f (s.logsAfter pins results) = resultAfter pins results (f s)

theorem LogBlind.ite {p : Prop} [Decidable p] {f g : State → StepResult} (hf : LogBlind f) (hg : LogBlind g) :
    LogBlind fun s => if p then f s else g s := by
  by_cases hp : p
  · simpa only [if_pos hp] using hf
  · simpa only [if_neg hp] using hg

/-- A meaning that runs only while no fatal code is recorded. -/
theorem LogBlind.whileRunning {k : State → StepResult} (h : LogBlind k) :
    LogBlind fun s => Machine.whileRunning s (k s) := by
  intro pins results s
  simp only [h pins results s, whileRunning_logsAfter]

/-- A step that answers a next state outright. -/
theorem logBlind_next {f : State → State}
    (h : ∀ pins results s, f (s.logsAfter pins results) = (f s).logsAfter pins results) :
    LogBlind fun s => .next (f s) := by
  intro pins results s
  simp only [h pins results s, resultAfter_next]

/-! ## A bus access (R180, R181) -/

theorem logBlind_busRead (c : ChanId) : LogBlind (busRead c) := by
  refine .whileRunning (logBlind_next fun pins results s => ?_)
  simp

theorem logBlind_execRdCtl (d : Byte) : LogBlind (execRdCtl d) := by
  refine .whileRunning (logBlind_next fun pins results s => ?_)
  simp

theorem logBlind_busWrite (c : ChanId) (d : Byte) : LogBlind (busWrite c d) := by
  refine .whileRunning fun pins results s => ?_
  simpa using commit_logsAfter replyWrote_logsAfter _ _ _

theorem logBlind_busLatch (c : ChanId) : LogBlind (busLatch c) := by
  refine .whileRunning (logBlind_next fun pins results s => ?_)
  simp

theorem logBlind_busProgram (c : ChanId) (am : AccessMode) (m : Mode) (bcd : Bool) :
    LogBlind (busProgram c am m bcd) := by
  refine .whileRunning fun pins results s => ?_
  simpa using commit_logsAfter (fun s => by simp) _ _ _

theorem logBlind_execRdbk (nc ns k2 k1 k0 : Bool) : LogBlind (execRdbk nc ns k2 k1 k0) := by
  refine .whileRunning (logBlind_next fun pins results s => ?_)
  simp [readBackChannel]

theorem logBlind_reservedWrite : LogBlind reservedWrite :=
  .whileRunning (logBlind_next fun _ _ => replyWrote_logsAfter)

theorem logBlind_controlWrite (d : Byte) : LogBlind (controlWrite d) :=
  .ite (.ite logBlind_reservedWrite (logBlind_execRdbk _ _ _ _ _))
    (.ite (logBlind_busLatch _) (.ite logBlind_reservedWrite (logBlind_busProgram _ _ _ _)))

theorem logBlind_frontEnd (w : TW) : LogBlind (frontEnd w) :=
  .ite (.ite (logBlind_controlWrite _) (logBlind_busWrite _ _))
    (.ite (logBlind_execRdCtl _) (logBlind_busRead _))

theorem logBlind_exec (i : Instr) : LogBlind (exec i) := by
  intro pins results s
  simp only [← frontEnd_encodeWord]
  exact logBlind_frontEnd _ pins results s

theorem logBlind_ioAccess (t : Transaction) : LogBlind (ioAccess t) := by
  intro pins results s
  unfold ioAccess
  split
  · rfl
  · exact logBlind_exec _ pins results s

/-! ## The other calls -/

theorem logBlind_gateStep (c : ChanId) (level : Bool) : LogBlind (gateStep c level) := by
  intro pins results s
  simpa [gateStep] using commit_logsAfter (finish := id) (fun _ => rfl) _ _ _

theorem logBlind_serializeStep : LogBlind serializeStep :=
  logBlind_next fun _ _ s => reply_logsAfter (.saved (serialize s)) s

theorem logBlind_restoreStep (entries : List Entry) : LogBlind (restoreStep entries) := by
  intro pins results s
  unfold restoreStep
  split <;> rfl

theorem logBlind_startupStep : LogBlind startupStep := by
  intro pins results s
  simp only [startupStep, apply_ite (resultAfter pins results)]
  rfl

/-! ## Expiries and the step -/

theorem logBlind_expireStep (a : Nat) (c : ChanId) : LogBlind (expireStep a c) := by
  intro pins results s
  rw [expireStep, expireStep, logsAfter_now, logsAfter_params, logsAfter_chan]
  split
  · rfl
  · exact commit_logsAfter (finish := id) (fun _ => rfl) c _ { s with now := a }

@[simp] theorem nextDue_logsAfter (t : Nat) (pins : List PinCall) (results : List Reply) (s : State) :
    nextDue t (s.logsAfter pins results) = nextDue t s := rfl

theorem LogBlind.afterExpiries {k : State → StepResult} (h : LogBlind k) :
    LogBlind fun s => Machine.afterExpiries s (k s) := by
  intro pins results s
  simp only [Machine.afterExpiries, logsAfter_now, nextDue_logsAfter]
  split
  · exact logBlind_expireStep _ _ pins results s
  · exact h pins results s

/-- Taking the call off the list reads no log. -/
theorem LogBlind.withPending {k : State → StepResult} (h : LogBlind k) (rest : List Input) :
    LogBlind fun s => k (s.withPending rest) :=
  fun pins results s => h pins results (s.withPending rest)

theorem logBlind_advanceStep (t : Nat) (rest : List Input) : LogBlind (advanceStep t rest) := by
  intro pins results s
  rw [advanceStep, advanceStep, logsAfter_now, nextDue_logsAfter]
  split
  · rfl
  · split
    · exact logBlind_expireStep _ _ pins results s
    · rfl

theorem logBlind_startupCall (rest : List Input) : LogBlind (startupCall rest) := by
  intro pins results s
  have hpast : (s.logsAfter pins results).hasPast = s.hasPast := rfl
  unfold startupCall
  rw [hpast]
  split
  · exact logBlind_startupStep.withPending rest pins results s
  · exact (logBlind_startupStep.withPending rest).afterExpiries pins results s

theorem logBlind_step : LogBlind step := by
  refine .whileRunning fun pins results s => ?_
  rw [logsAfter_pending]
  split
  · rfl
  · exact logBlind_advanceStep _ _ pins results s
  · exact ((logBlind_ioAccess _).withPending _).afterExpiries pins results s
  · exact ((logBlind_gateStep _ _).withPending _).afterExpiries pins results s
  · exact (logBlind_serializeStep.withPending _).afterExpiries pins results s
  · exact (logBlind_restoreStep _).withPending _ pins results s
  · exact logBlind_startupCall _ pins results s

/-! ## Runs -/

theorem logBlind_run (k : Nat) : LogBlind (Sys2Proof.core.run k) := by
  induction k with
  | zero => exact fun _ _ _ => rfl
  | succ k ih =>
    intro pins results s
    have hstep : Sys2Proof.core.step (s.logsAfter pins results) = resultAfter pins results (Sys2Proof.core.step s) :=
      logBlind_step pins results s
    simp only [Host.Core.run, hstep]
    cases Sys2Proof.core.step s with
    | next u => exact ih pins results u
    | fault | refused => rfl

theorem resultAfter_eq_next {pins : List PinCall} {results : List Reply} {r : StepResult} {t : State}
    (h : resultAfter pins results r = .next t) : ∃ u, r = .next u ∧ t = u.logsAfter pins results := by
  cases r with
  | next u =>
    injection h with h
    exact ⟨u, rfl, h.symm⟩
  | fault | refused => cases h

/-- A run appends to both logs, and appends the same to any other logs the state might hold. -/
theorem run_appends_to_logs {k : Nat} {s t : State} (h : Sys2Proof.core.run k s = .next t) :
    ∃ (pins : List PinCall) (results : List Reply),
      t.pinLog = s.pinLog ++ pins ∧ t.replies = s.replies ++ results ∧
        ∀ pins' results', Sys2Proof.core.run k { s with pinLog := pins', replies := results' } =
          .next { t with pinLog := pins' ++ pins, replies := results' ++ results } := by
  -- the run from empty logs, which every other run repeats after its own
  have hempty (pins' : List PinCall) (results' : List Reply) :
      { s with pinLog := pins', replies := results' } =
        State.logsAfter pins' results' { s with pinLog := [], replies := [] } := by
    simp only [State.logsAfter, List.append_nil]
  have hs : s = _ := hempty s.pinLog s.replies
  rw [hs, logBlind_run] at h
  obtain ⟨u, hu, rfl⟩ := resultAfter_eq_next h
  refine ⟨u.pinLog, u.replies, rfl, rfl, fun pins' results' => ?_⟩
  rw [hempty, logBlind_run, hu]
  rfl

/-! ## The statement -/

/-- Settles O53: the restore leaves the saved state but for the logs, and a run reads no log. -/
theorem restoredInstanceBehavesTheSame : Obligations.RestoredInstanceBehavesTheSame := by
  intro s u t later k hbound hs hu hparams hnow hdraws hp hrun
  obtain ⟨pins, results, hpins, hresults, hsame⟩ := run_appends_to_logs hrun
  refine ⟨pins, results, hpins, hresults, ?_⟩
  have hfatal : u.fatalCode = s.fatalCode := hu.trans hs.symm
  rw [run_succ (restoreOfSavedListRoundTrips s u later hbound hu hp), ← hsame, hparams, hfatal, hnow, hdraws]

end Sys2Proof.Machine
end

section
/-! SUPPORT. The fatal outcome (spec/60_exceptions.md R220 to R227): the step that records a code changes nothing else,
and after it nothing has a meaning. -/

namespace Sys2Proof.Machine

/-- R225, R227: an ending that records a code is the state before with that code. -/
theorem Ending.eq_of_fatal {s t : State} {code : FatalCode} (h : Ending s t) (hcode : t.fatalCode = some code) :
    t = { s with fatalCode := some code } := by
  cases h with
  | running hrun => cases hrun.symm.trans hcode
  | badAccess _ _ ht | checkpointMismatch _ ht | checkpointInconsistent _ ht =>
    subst ht
    rw [← hcode]

/-- R225: every shared meaning an instruction can have asks first that no code is recorded. -/
theorem exec_of_fatal {s : State} {code : FatalCode} (hcode : s.fatalCode = some code) (i : Instr) :
    exec i s = .fault (.terminated code) := by
  obtain ⟨_, hi⟩ | hi | ⟨_, _, hi⟩ | ⟨_, hi⟩ | ⟨_, _, _, _, hi⟩ | ⟨_, _, _, _, _, hi⟩ | hi := exec_shape i s
  all_goals
    rw [hi]
    exact whileRunning_fatal hcode _

/-- Settles O13: the ways a step may end, read at the code it records. -/
theorem fatalStepChangesNothingElse : Obligations.FatalStepChangesNothingElse :=
  fun _ _ _ h hcode => (step_ending h).eq_of_fatal hcode

/-- Settles O12: the step and every instruction's meaning run only while no code is recorded. -/
theorem fatalIsFinal : Obligations.FatalIsFinal :=
  fun _ _ hcode => ⟨whileRunning_fatal hcode _, exec_of_fatal hcode⟩

end Sys2Proof.Machine
end
